-- ==== Sys2Proof/Word.lean ====
section
/-! DEFINITION. The byte, the unit in which every frame of the links is laid out, and the character that
carries it on a line. -/

namespace Sys2Proof

/-- One byte of a frame (R168). -/
abbrev Byte := BitVec 8

/-- One character as it stands on a line, the first bit lowest: the start bit, 8 data bits with the
least significant first, and the stop bit (R168). -/
abbrev LineChar := BitVec 10

end Sys2Proof
end

