-- ==== Sys2Proof/Syntax.lean ====
section
/-! DEFINITION. The commands of the part: one constructor of `Instr` for each row of
spec/opcode_table.json, and the operands they carry. -/

namespace Sys2Proof

/-- An axis of the mount, which is also a lane of a trajectory (00, lanes). -/
inductive Lane where
  | az
  | el
  | rot
  deriving DecidableEq, Repr

/-- One of the part's four ports (section 10.1). -/
inductive Port where
  | site
  | axis (x : Lane)
  deriving DecidableEq, Repr

/-- A link frame without its start byte, length and CRC, which `frameWire` adds (section 10.3.1). -/
structure Frame where
  dest : Byte
  src : Byte
  kind : Byte
  tag : Byte
  payload : List Byte
  deriving DecidableEq, Repr

/-- An edge of the SHUTTER input (R163): rising is OPEN, falling is CLOSE. -/
inductive ShutterEdge where
  | opening
  | closing
  deriving DecidableEq, Repr

/-- What a port's receiver sees of its line (R168, R169): a character, or a stretch in which the line
stays idle, in byte times. -/
inductive LineInput where
  | char (c : LineChar)
  | quiet (byteTimes : Nat)
  deriving DecidableEq, Repr

/-- The commands. A request command (those without operands up to `unknownRequest`) is the Request Processor
taking the request at the head of the request buffer, whose payload holds the parameters (R173);
the others carry what the outside world brings. -/
inductive Instr where
  | submitTarget
  | submitOpportunity
  | withdrawTarget
  | flushQueue
  | runQueue
  | holdQueue
  | readTarget
  | readOutcome
  | readCaptures
  | adjustDwell
  | appendSegments
  | closeChain
  | truncateChain
  | readChain
  | unpark
  | park
  | stop
  | clearAlarm
  | writeTerm
  | deleteTerm
  | commitTerms
  | readTerms
  | pushOffset
  | popOffset
  | replaceTopOffset
  | clearOffsets
  | readOffsets
  | configureGuide
  | startGuiding
  | stopGuiding
  | setMasks
  | clearConditions
  | readConditions
  | loadAxes
  | loadLimits
  | lockLimits
  | loadForwarding
  | setReportDestination
  | enableSupervision
  | setTime
  | setTimeAtPulse
  | readTime
  | peekTime
  | readStatus
  | resetController
  | unknownRequest
  /-- A frame on the site port ends its reception (R172). -/
  | requestFrameReception (f : Frame)
  /-- A frame on the site port ends its reception (R135). -/
  | guideFrame (f : Frame)
  /-- A frame on axis port `x` ends its reception (R115). -/
  | sample (x : Lane) (f : Frame)
  /-- A frame on the site port ends its reception (R177). -/
  | proxyServiceFrame (f : Frame)
  /-- A frame on axis port `x` ends its reception (R178). -/
  | serviceReply (x : Lane) (f : Frame)
  /-- What the line of a port brings where a frame is discarded in reception (R169). -/
  | linkError (p : Port) (input : List LineInput)
  | siteTransmitStart
  | axisTransmitStart (x : Lane)
  /-- RESET_N goes low and high again, or power comes on: the straps and the PERMIT level are those
  at the end of the reset (R154, R170). -/
  | pinReset (straps : BitVec 3) (permit : Bool)
  | permitLost
  | pulseEdge
  | shutterEdge (e : ShutterEdge)
  | encoderSilent (x : Lane)
  | supervisionLapse
  | graceExpiry
  | guideWatchExpiry
  | guideLost
  | dwellCompletion
  | slewCompletion
  | stopCompletion
  | windowExpiry (targetId : Nat)
  | startTimeReached
  | permitRise
  | frameTransmissionEnd (p : Port)
  | waitIdleReturnToHunt (p : Port)
  deriving DecidableEq, Repr

end Sys2Proof
end

