-- ==== Sys2Proof/Config.lean ====
section
/-! DEFINITION. What the part fixes once and for all: the sizes of its stores, its constants, and the
free values the manual leaves open. -/

namespace Sys2Proof.Config

/-- Records the Target Queue holds at most (R7). -/
@[simp] abbrev queueSize : Nat := 64
/-- Entries the context shelf holds at most (R66). -/
@[simp] abbrev shelfSize : Nat := 3
/-- Records the outcome list holds at most (R21). -/
@[simp] abbrev outcomeSize : Nat := 16
/-- Entries a capture list holds at most (R4). -/
@[simp] abbrev captureSize : Nat := 16
/-- Segment slots of the Segment Store (R25). -/
@[simp] abbrev segmentSlots : Nat := 1024
/-- Segments one chain holds at most (R26, R31). -/
@[simp] abbrev chainSize : Nat := 128
/-- Terms a term table holds at most (R98). -/
@[simp] abbrev termSize : Nat := 24
/-- Entries of the offset stack (R105). -/
@[simp] abbrev stackSize : Nat := 8
/-- REQUEST frames the request buffer holds at most (R172). -/
@[simp] abbrev requestSize : Nat := 4
/-- Responses the response queue holds at most (R173). -/
@[simp] abbrev responseSize : Nat := 4
/-- Entries the telemetry buffer holds at most (R127). -/
@[simp] abbrev telemetrySize : Nat := 4
/-- Frames a service queue holds at most (R129). -/
@[simp] abbrev serviceSize : Nat := 2
/-- Entries the forwarding table holds at most (R176). -/
@[simp] abbrev forwardingSize : Nat := 16
/-- Records the report queue holds at most (R182). -/
@[simp] abbrev reportSize : Nat := 64
/-- Payload bytes of a frame at most (R171). -/
@[simp] abbrev payloadSize : Nat := 240
/-- Where a link-error count stays (R169). -/
@[simp] abbrev linkErrorMax : Nat := 65535
/-- Where mount time stays, 2^64 - 1 (R158). -/
@[simp] abbrev mountTimeMax : Nat := 18446744073709551615

/-- One turn in mas (00, units). -/
abbrev turn : Int := 1296000000
/-- Internal units of angle in one mas (00, units). -/
abbrev unitsPerMas : Int := 256
/-- The planning lead in microseconds (R86). -/
abbrev planningLead : Nat := 50000
/-- The largest step of mount time in the moving states, in microseconds (R159, R161). -/
abbrev stepLimit : Nat := 2000
/-- The bound of the effective offset in mas (R105), which is also the bound of a term's
coefficient (R96). -/
abbrev offsetBound : Int := 3600000

/-- FREE VALUE (log 6). The cruise velocity, in 1/256 mas/s, of a stretched profile when no
cruise velocity makes its three parts take exactly the duration (R87 gives none). It may depend on
the start velocity, end velocity, displacement and duration, and on a count that makes each plan's
values fresh. -/
opaque freeCruise : Nat → Int → Int → Int → Nat → Int

/-- FREE VALUE (log 7). A natural number the manual does not state: the guide watch or the lost
limit, in seconds, taken from a configuration that is empty (R138, R142). -/
opaque freeSeconds : Nat → Nat

/-- FREE VALUE (log 7). The measured angle, in mas, that Unpark fixes as hold position when the
latest sample's measured angle is absent (R48, R116). -/
opaque freeAngle : Nat → Int

end Sys2Proof.Config
end

