-- ==== Sys2Proof/Machine/State.lean ====
section
/-! DEFINITION. The state of the part, block by block as the table of blocks in 00_scope gives it,
and the state right after a pin reset. -/

namespace Sys2Proof.Machine

/-! ## Names -/

/-- One value for each axis or lane. -/
structure Lanes (α : Type) where
  az : α
  el : α
  rot : α
  deriving DecidableEq, Repr

/-- The motion states (R47). -/
inductive MotionState where
  | parked | idle | slewing | settling | tracking | degraded | stopping | parking | alarm
  deriving DecidableEq, Repr

/-- The queue mode (R49). -/
inductive QueueMode where
  | run | hold
  deriving DecidableEq, Repr

/-- A record's class (R1). -/
inductive TargetClass where
  | normal | opportunity
  deriving DecidableEq, Repr

/-- A record's cable-wrap preference (R1). -/
inductive WrapPref where
  | auto | negative | positive
  deriving DecidableEq, Repr

/-- rot_mode with rot_fixed, which is present with FIXED only (R1). The angle is in mas. -/
inductive RotMode where
  | follow
  | fixed (angle : Int)
  deriving DecidableEq, Repr

/-- A record's guide_mode (R1). -/
inductive GuideMode where
  | none | optional | required
  deriving DecidableEq, Repr

/-- The guide states (R138). -/
inductive GuideState where
  | off | acquiring | locked | lost
  deriving DecidableEq, Repr

/-- The cause a GUIDE_STATE report names (R138). -/
inductive GuideCause where
  | tracking | start | frame | acquireTimeout | watch | reject | stop
  deriving DecidableEq, Repr

/-- The seven conditions, in bit order (section 8.1). -/
inductive Condition where
  | underrun | limitApproach | range | trackError | guideReject | offsetStack | shutterOffTarget
  deriving DecidableEq, Repr

/-- The OFFSET_STACK indicator (R110). -/
inductive Indicator where
  | over | under
  deriving DecidableEq, Repr

/-- The alarm kinds (R154). -/
inductive AlarmKind where
  | encoderSilent | hardLimit | permitLost | driveFault
  deriving DecidableEq, Repr

/-- The degrade causes (R58). -/
inductive DegradeCause where
  | trackError | limitClamp | rangeHold | underrunHold
  deriving DecidableEq, Repr

/-- Where an admitted record stands or stood (section 1.3). -/
inductive Place where
  | queued | active | shelved
  deriving DecidableEq, Repr

/-- The outcomes (section 1.7). -/
inductive Verdict where
  | completed | expired | withdrawn | faulted | abandoned
  deriving DecidableEq, Repr

/-- The outcome reasons (section 1.7, R185). `aborted` is the reason ALARM of an abandoned record;
`byAlarm` names the alarm kind of a faulted one. -/
inductive Reason where
  | none | request | flush | stop | park | lapse | aborted | noTrajectory | guideLost
  | condition (c : Condition)
  | byAlarm (k : AlarmKind)
  deriving DecidableEq, Repr

/-- The response statuses (R181). -/
inductive Status where
  | ok | badParam | unknownRequest | wrongState | notReady | notFound | noTarget | duplicateId
  | queueFull | shelfFull | storeFull | chainFull | chainClosed | gap | discontinuous
  | outOfLimits | rateLimit | locked | timeStep | duplicateTerm | tableFull | offsetRange
  | stackFault
  deriving DecidableEq, Repr

/-- The rounding modes of the axis table (R81). -/
inductive Rounding where
  | nearestEven | floor | ceiling | towardZero
  deriving DecidableEq, Repr

/-- A receiver's state (R169). In FRAME it holds the bytes collected behind the start byte, oldest
first; in FRAME and WAIT_IDLE, the byte times for which its line has been idle since the last byte. -/
inductive RxState where
  | hunt
  | frame (collected : List Byte) (idle : Nat)
  | waitIdle (idle : Nat)
  deriving DecidableEq, Repr

/-- The three errors that discard a frame in reception (R169). -/
inductive LinkError where
  | oversize | truncation | crc
  deriving DecidableEq, Repr

/-- What a receiver hands on: a frame whose CRC matches, or the error that discards one (R169). -/
inductive RxEvent where
  | received (f : Frame)
  | discarded (e : LinkError)
  deriving DecidableEq, Repr

/-- The action of a forwarding entry (R176). -/
inductive ForwardAction where
  | forward | forwardQuiet | drop
  deriving DecidableEq, Repr

/-- Why a service frame was refused (R179). -/
inductive RefusedReason where
  | motionKind | busy | full
  deriving DecidableEq, Repr

/-! ## Records and contexts (chapters 1, 3, 5, 7, 8) -/

/-- A capture entry (R4). max_error is in whole mas. -/
structure Capture where
  edge : ShutterEdge
  time : Nat
  state : MotionState
  maxError : Nat
  stackTop : Nat
  deriving DecidableEq, Repr

/-- The statistics part of a record (R3). dwell_counted and degraded_time are in microseconds. -/
structure Statistics where
  activationTime : Option Nat
  acquisitionTime : Option Nat
  dwellCounted : Nat
  degradedTime : Nat
  maxError : Lanes Nat
  wrapShort : Bool
  wrapK : Option Int
  deriving DecidableEq, Repr

/-- A target record (R1) with its statistics (R3) and capture list (R4). dwell is in ms. -/
structure TargetRecord where
  targetId : Nat
  cls : TargetClass
  earliestStart : Option Nat
  latestStart : Option Nat
  dwell : Nat
  wrapPref : WrapPref
  rotMode : RotMode
  guideMode : GuideMode
  stats : Statistics
  captures : List Capture
  captureOverflow : Bool
  deriving DecidableEq, Repr

/-- The offset stack (R105): 8 entries in mas, bottom first, of which the first `top` are VALID. -/
structure OffsetStack where
  entries : List (Lanes Int)
  top : Nat
  deriving DecidableEq, Repr

/-- A count of mount time toward a length, both in microseconds (R138, R142). -/
structure Count where
  elapsed : Nat
  length : Nat
  deriving DecidableEq, Repr

/-- The guide part of a context (R134). The accumulators are in 1/256 mas. -/
structure GuideContext where
  state : GuideState
  accAz : Int
  accEl : Int
  lastSeq : Option Nat
  hold : Bool
  watch : Option Count
  lost : Option Count
  deriving DecidableEq, Repr

/-- The context of a running target, without its degrade-cause set (00, context; R66). applied is in
1/256 mas and blendRate in mas/s (R112); dwellRemaining is in microseconds (R61). -/
structure Context where
  stack : OffsetStack
  applied : Lanes Int
  blendTime : Lanes Nat
  blendRate : Lanes Int
  guide : GuideContext
  flags : BitVec 8
  indicator : Option Indicator
  dwellRemaining : Nat
  wrapK : Int
  deriving DecidableEq, Repr

/-- A record together with its context, in the active slot or on the shelf (R66). -/
structure Running where
  record : TargetRecord
  ctx : Context
  deriving DecidableEq, Repr

/-- An entry of the outcome list (R21). -/
structure OutcomeEntry where
  record : TargetRecord
  verdict : Verdict
  reason : Reason
  axis : Option Lane
  time : Nat
  place : Place
  deriving DecidableEq, Repr

/-! ## Segments and chains (chapter 2) -/

/-- A segment (R25). Its owner and lane are those of its chain. -/
structure Segment where
  start : Nat
  duration : Nat
  c0 : Int
  c1 : Int
  c2 : Int
  c3 : Int
  deriving DecidableEq, Repr

/-- end_time, end_position and end_velocity of a started chain (R26), the last two in 1/256 units. -/
structure ChainEnd where
  time : Nat
  position : Int
  velocity : Int
  deriving DecidableEq, Repr

/-- A chain with its header (R26). count is the length of `segments`, and started is that `ending`
is present. -/
structure Chain where
  owner : Nat
  lane : Lane
  segments : List Segment
  ending : Option ChainEnd
  closed : Bool
  refillArmed : Bool
  deriving DecidableEq, Repr

/-! ## Tables (chapters 4, 5, 7, 10) -/

/-- An axis's limits in mas (R78). -/
structure AxisLimits where
  hardMin : Int
  softMin : Int
  softMax : Int
  hardMax : Int
  deriving DecidableEq, Repr

/-- An axis record (R81). `negative` is sign -1. -/
structure AxisRecord where
  node : Byte
  countsPerTurn : Nat
  zero : Int
  negative : Bool
  countMin : Int
  countMax : Int
  rounding : Rounding
  lead : Nat
  maxVelocity : Nat
  maxAcceleration : Nat
  settleTol : Nat
  trackTol : Nat
  watch : Nat
  offsetRate : Nat
  parkAngle : Int
  decimation : Nat
  deriving DecidableEq, Repr

/-- The global settings (R82): ms, ms, s, s. -/
structure Globals where
  settleTime : Nat
  recoverTime : Nat
  refillHorizon : Nat
  activationCover : Nat
  deriving DecidableEq, Repr

/-- A pointing term (R96), with its codes. -/
structure Term where
  kind : Nat
  n : Nat
  phase : Nat
  c : Int
  deriving DecidableEq, Repr

/-- A loaded guide configuration (R132). -/
structure GuideConfig where
  guider : Byte
  azGain : Nat
  azClamp : Nat
  azLimit : Nat
  elGain : Nat
  elClamp : Nat
  elLimit : Nat
  qualityMin : Nat
  watch : Nat
  lostLimit : Nat
  deriving DecidableEq, Repr

/-- A forwarding entry (R176). -/
structure ForwardEntry where
  proxy : Lane
  low : Nat
  high : Nat
  action : ForwardAction
  deriving DecidableEq, Repr

/-! ## Plans (chapter 4) -/

/-- The angle (1/256 mas) and velocity (1/256 mas/s) of an axis at one moment (R84). -/
structure Motion where
  pos : Int
  vel : Int
  deriving DecidableEq, Repr

/-- One axis of a slew or park slew (R84 to R87): the origin, the end state, the acceleration in
1/256 mas/s^2, the cruise velocity in 2^-64 of 1/256 mas/s (log 10), and the bound of R84 in 1/256 mas. -/
structure SlewAxis where
  origin : Motion
  target : Motion
  accel : Nat
  cruise : Int
  low : Int
  high : Int
  deriving DecidableEq, Repr

/-- A slew or park slew. Its plan start is makeTime plus the planning lead (R86). -/
structure SlewPlan where
  makeTime : Nat
  arrival : Nat
  wrapK : Int
  wrapShort : Bool
  axes : Lanes SlewAxis
  deriving DecidableEq, Repr

/-- One axis of a stop profile (R91). restTime is the first whole microsecond at rest. -/
structure StopAxis where
  origin : Motion
  accel : Nat
  restTime : Nat
  restPos : Int
  low : Int
  high : Int
  deriving DecidableEq, Repr

/-- A stop profile (R91). -/
structure StopPlan where
  makeTime : Nat
  endTime : Nat
  axes : Lanes StopAxis
  deriving DecidableEq, Repr

/-- The current plan (R84). -/
inductive Plan where
  | none
  | slew (p : SlewPlan)
  | stop (p : StopPlan)
  | park (p : SlewPlan)
  deriving DecidableEq, Repr

/-- What the wrap choice hands back (R89). noCover carries the first uncovered planning point. -/
inductive WrapChoice where
  | noCover (point : Nat)
  | noTrajectory
  | plan (p : SlewPlan)
  deriving DecidableEq, Repr

/-- One wrap candidate (R88): not plannable for lack of cover at a point, or planned with its
feasible stretch, whether every instant of its window passed, and its AZ slew distance (R89). -/
inductive WrapCandidate where
  | uncovered (point : Nat)
  | planned (p : SlewPlan) (feasible : Bool) (stretch : Nat) (distance : Nat)
  deriving DecidableEq, Repr

/-! ## Frames, responses and reports (chapters 6, 10, 11) -/

/-- A frame in flight (R129): its bytes as they go on the line, the index of the byte on the line,
and whether it has been cut off (R131). -/
structure InFlight where
  frame : Frame
  wire : List Byte
  pos : Nat
  cut : Bool
  deriving DecidableEq, Repr

/-- A transmitter (R129). gap is what remains, in byte times, of the idle time after the last byte. -/
structure Transmitter where
  inFlight : Option InFlight
  gap : Nat
  deriving DecidableEq, Repr

/-- An axis port (R129, R169, R178). -/
structure AxisPort where
  tx : Transmitter
  control : Option Frame
  setpoint : Option Frame
  service : List Frame
  requester : Option Byte
  rx : RxState
  linkErrors : Nat
  deriving DecidableEq, Repr

/-- A REQUEST frame in the request buffer (R172). -/
structure Request where
  src : Byte
  dest : Byte
  tag : Byte
  payload : List Byte
  deriving DecidableEq, Repr

/-- What a request is answered with: a status and the result bytes that follow it (R180). -/
structure Reply where
  status : Status
  result : List Byte
  deriving DecidableEq, Repr

/-- A response in the response queue (R173). -/
structure Response where
  dest : Byte
  tag : Byte
  code : Byte
  reply : Reply
  deriving DecidableEq, Repr

/-- A telemetry entry (R127). Angles are in whole mas. -/
structure TelemetryEntry where
  axis : Lane
  sampleTime : Nat
  commanded : Option Int
  measured : Option Int
  error : Option Int
  state : MotionState
  targetId : Nat
  fault : Bool
  limitSwitch : Bool
  braked : Bool
  holdMark : Bool
  deriving DecidableEq, Repr

/-- A service reply waiting in its axis's return slot (R178). -/
structure ReturnFrame where
  axis : Lane
  frame : Frame
  deriving DecidableEq, Repr

/-- The detail of a report, by kind (R185). -/
inductive ReportDetail where
  | targetOutcome (v : Verdict) (r : Reason) (axis : Option Lane) (place : Place)
  | phaseChange (left entered : MotionState)
  | refillWanted (lane : Lane) (endTime : Nat)
  | segmentsWanted (needed : Nat) (covered : Lanes Bool)
  | conditionRaised (c : Condition) (masked : Bool) (qualifier : Byte) (captureTime : Nat)
  | alarmRaised (k : AlarmKind) (axis : Option Lane) (first : Bool)
  | commitTaken (count : Nat) (deferred : Bool)
  | pulseLoad (refused : Bool) (value captured : Nat) (step : Int)
  | shutterUnattached (edge : ShutterEdge) (state : MotionState)
  | forwardRefused (toSite : Bool) (axis : Lane) (kind tag station : Byte) (reason : RefusedReason)
  | supervisionLapse (state : MotionState) (interval grace : Nat)
  | guideState (left entered : GuideState) (cause : GuideCause) (az el : Int) (lastSeq : Option Nat)
  deriving DecidableEq, Repr

/-- A report record (R182, R183). -/
structure Report where
  detail : ReportDetail
  time : Nat
  targetId : Nat
  precededByLoss : Bool
  deriving DecidableEq, Repr

/-! ## Servo Path and Condition Unit records (chapters 6, 8) -/

/-- A latest-sample record (R116). measured is in mas; commanded and error are in 1/256 mas. -/
structure LatestSample where
  arrival : Nat
  sampleTime : Nat
  counts : Int
  fault : Bool
  limitSwitch : Bool
  braked : Bool
  measured : Option Int
  commanded : Option Int
  error : Option Int
  holdMark : Bool
  seenSinceAlarm : Bool
  deriving DecidableEq, Repr

/-- A running encoder watch (R128). -/
structure Watch where
  restart : Nat
  interval : Nat
  deriving DecidableEq, Repr

/-- A settle or recover measurement (R124, R125). -/
structure Measurement where
  beginTime : Nat
  seen : Lanes Bool
  deriving DecidableEq, Repr

/-- The contributions to the degrade-cause set, per cause and axis (R58), and in 1/256 mas the end_position
at which a lane's last evaluation holds it, none where that evaluation found a value (R44, log 38). -/
structure Causes where
  trackError : Lanes Bool
  limitClamp : Lanes Bool
  rangeHold : Lanes Bool
  underrunHold : Lanes Bool
  heldAt : Lanes (Option Int)
  deriving DecidableEq, Repr

/-- A DEGRADED spell (R59). -/
structure Spell where
  start : Nat
  underrunSeen : Bool
  deriving DecidableEq, Repr

/-- The first cause of the alarm record (R155). -/
structure FirstCause where
  kind : AlarmKind
  axis : Option Lane
  time : Nat
  deriving DecidableEq, Repr

/-! ## The blocks -/

/-- Time Base (chapter 9). -/
structure TimeBase where
  mount : Nat
  valid : Bool
  pulseTime : Option Nat
  pulseNew : Bool
  load : Option Nat
  deriving DecidableEq, Repr

/-- Supervision (R74 to R77). interval and grace are in seconds; timer is the interval timer's last
restart, none while it stands stopped; graceCount is the grace count's elapsed time. -/
structure Supervision where
  on : Bool
  locked : Bool
  interval : Nat
  grace : Nat
  timer : Option Nat
  lapsed : Bool
  graceCount : Option Nat
  deriving DecidableEq, Repr

/-- Sequencer (chapters 1 and 3). The shelf stands top first, the outcome list oldest first. hold is
in 1/256 mas. startHanded is a start-time-reached event that the Time Base has handed over for the head
and that is not taken yet (R164), and expiryHanded names, in queue order, the queued records whose
window-expiry event is handed over and not taken yet (R165). -/
structure Sequencer where
  queue : List TargetRecord
  active : Option Running
  shelf : List Running
  outcomes : List OutcomeEntry
  mode : QueueMode
  motion : MotionState
  hold : Lanes Int
  parkPending : Bool
  starved : Bool
  startHanded : Bool
  expiryHanded : List Nat
  spell : Option Spell
  sup : Supervision
  deriving DecidableEq, Repr

/-- Slew Planner (chapter 4). -/
structure SlewPlanner where
  limits : Option (Lanes AxisLimits)
  limitsLocked : Bool
  axes : Option (Lanes AxisRecord)
  globals : Globals
  current : Plan
  deriving DecidableEq, Repr

/-- Correction Unit (chapter 5), without what belongs to the context. -/
structure CorrectionUnit where
  staged : List Term
  active : List Term
  commitPending : Bool
  deriving DecidableEq, Repr

/-- Servo Path (chapter 6). -/
structure ServoPath where
  latest : Lanes (Option LatestSample)
  watch : Lanes (Option Watch)
  telemetryCount : Lanes Nat
  causes : Causes
  settle : Option Measurement
  recover : Option Measurement
  deriving DecidableEq, Repr

/-- Condition Unit (chapter 8), without what belongs to the context. -/
structure ConditionUnit where
  mask : BitVec 8
  first : Option FirstCause
  causeSet : List (AlarmKind × Option Lane)
  deriving DecidableEq, Repr

/-- Site Port (chapter 10). -/
structure SitePort where
  rx : RxState
  linkErrors : Nat
  tx : Transmitter
  requests : List Request
  requestDropped : Bool
  responses : List Response
  telemetry : List TelemetryEntry
  returns : List ReturnFrame
  forwarding : List ForwardEntry
  telemetryDest : Option Byte
  address : Byte
  deriving DecidableEq, Repr

/-- Report Unit (chapter 11). -/
structure ReportUnit where
  queue : List Report
  dest : Byte
  lost : Bool
  lossMarker : Bool
  deriving DecidableEq, Repr

/-- The state of the part. `pending` is the queue of the commands that wait, and `freeIndex` the
model's own counter for the free values of Config (logs 6 and 7). -/
structure State where
  time : TimeBase
  seq : Sequencer
  chains : List Chain
  planner : SlewPlanner
  corr : CorrectionUnit
  guide : Option GuideConfig
  servo : ServoPath
  cond : ConditionUnit
  ports : Lanes AxisPort
  site : SitePort
  rep : ReportUnit
  permit : Bool
  freeIndex : Nat
  pending : List Instr
  deriving DecidableEq, Repr

/-- Why the part stops: never. The manual gives no event that stops it (a condition ends a target,
an alarm enters ALARM), so there is no fault, which is safe. -/
inductive Fault where
  deriving DecidableEq, Repr

/-- Why a command has no meaning in the model. -/
inductive Refusal where
  /-- Raised by an arm of `exec` whose command has no meaning yet; safe, since nothing is claimed of
  it. No arm raises it now. -/
  | notModelled (mnemonic : String)
  deriving DecidableEq, Repr

/-! ## Reset -/

/-- The same value on every axis. -/
def Lanes.const {α : Type} (a : α) : Lanes α := ⟨a, a, a⟩

/-- An idle transmitter at the end of a pin reset, whose line is free 2 byte times later (R168). -/
def Transmitter.reset : Transmitter := { inFlight := none, gap := 2 }

/-- The BRAKE frame to drive node `node` (R129: source 0x01; section 10.3.3: no payload, tag 0). -/
def brakeFrame (node : Byte) : Frame :=
  { dest := node, src := 0x01, kind := 0x23, tag := 0, payload := [] }

/-- An axis port after a pin reset: empty but for the BRAKE in its control slot, addressed to node
0x02 since no axis table is loaded (R47, R129). -/
def AxisPort.reset : AxisPort :=
  { tx := .reset, control := some (brakeFrame 0x02), setpoint := none, service := [],
    requester := none, rx := .hunt, linkErrors := 0 }

/-- No degrade cause, and no lane held (R44, R58). -/
def Causes.empty : Causes :=
  { trackError := .const false, limitClamp := .const false, rangeHold := .const false,
    underrunHold := .const false, heldAt := .const none }

/-- The global settings' defaults (R82). -/
def Globals.default : Globals :=
  { settleTime := 2000, recoverTime := 1000, refillHorizon := 30, activationCover := 60 }

/-- The machine right after a pin reset: every value as R7, R21, R25, R45, R47, R49, R66, R74, R78,
R81, R82, R84, R98, R116, R127 to R129, R132, R145, R155, R158, R168 to R178 and R183 give it; the
hold position, the two supervision values, PERMIT and the straps are the model's (logs 4, 8, 9). -/
def State.reset : State :=
  { time := { mount := 0, valid := false, pulseTime := none, pulseNew := false, load := none }
    seq :=
      { queue := [], active := none, shelf := [], outcomes := [], mode := .hold, motion := .parked
        hold := .const 0, parkPending := false, starved := false, startHanded := false
        expiryHanded := [], spell := none
        sup := { on := false, locked := false, interval := 0, grace := 0, timer := none
                 lapsed := false, graceCount := none } }
    chains := []
    planner := { limits := none, limitsLocked := false, axes := none, globals := .default
                 current := .none }
    corr := { staged := [], active := [], commitPending := false }
    guide := none
    servo := { latest := .const none, watch := .const none, telemetryCount := .const 0
               causes := .empty, settle := none, recover := none }
    cond := { mask := 0x78, first := none, causeSet := [] }
    ports := .const .reset
    site := { rx := .hunt, linkErrors := 0, tx := .reset, requests := [], requestDropped := false
              responses := [], telemetry := [], returns := [], forwarding := []
              telemetryDest := none, address := 0x20 }
    rep := { queue := [], dest := 0xFF, lost := false, lossMarker := false }
    permit := true
    freeIndex := 0
    pending := [] }

end Sys2Proof.Machine
end

