-- ==== Sys2Proof/Machine/Bytes.lean ====
section
/-! DEFINITION. Bytes and numbers: big-endian fields, the CRC and the wire form of a frame (R171),
and the rounding helpers of the arithmetic. -/

namespace Sys2Proof.Machine

/-! ## Rounding -/

/-- `n / d` rounded to the nearest whole number, ties away from zero (R28, R97, R116). -/
def roundDiv (n : Int) (d : Nat) : Int :=
  if 0 ≤ n then (2 * n + d) / (2 * d) else -((2 * -n + d) / (2 * d))

/-- `n / d` rounded up. -/
def ceilDiv (n : Int) (d : Nat) : Int := -((-n) / d)

/-- 1/256 mas to whole mas, rounded to nearest; ties go away from zero, which is the model's choice (00,
units, and R109 and R185 give no tie rule; log 33). -/
def wholeMas (a : Int) : Int := roundDiv a 256

/-- Whole mas to 1/256 mas. -/
def unitsOf (mas : Int) : Int := Config.unitsPerMas * mas

/-- One step of Newton's iteration for the square root, as many times as `fuel` says, stopping when
it no longer falls. -/
def sqrtIter : Nat → Nat → Nat → Nat
  | 0, _, g => g
  | fuel + 1, n, g =>
    let g' := (g + n / g) / 2
    if g' < g then sqrtIter fuel n g' else g

/-- The square root of `n`, rounded down. -/
def isqrt (n : Nat) : Nat :=
  if n = 0 then 0 else sqrtIter (Nat.log2 n + 2) n (2 ^ (Nat.log2 n / 2 + 1))

/-- The square root of `n`, rounded up. -/
def isqrtUp (n : Nat) : Nat :=
  let r := isqrt n
  if r * r = n then r else r + 1

/-- `x` held within `lo..hi`. -/
def clampInt (lo hi x : Int) : Int := if x < lo then lo else if hi < x then hi else x

/-! ## Big-endian fields (00, conventions; R171) -/

/-- The unsigned number the bytes spell, most significant first. -/
def beNat (bytes : List Byte) : Nat := bytes.foldl (fun n b => n * 256 + b.toNat) 0

/-- The two's complement number the bytes spell, most significant first. -/
def beInt (bytes : List Byte) : Int :=
  let n := beNat bytes
  if 2 * n < 256 ^ bytes.length then n else (n : Int) - (256 ^ bytes.length : Nat)

/-- The `width` bytes that stand `offset` bytes into `bytes`. -/
def fieldAt (bytes : List Byte) (offset width : Nat) : List Byte := (bytes.drop offset).take width

/-- An unsigned field. -/
def natAt (bytes : List Byte) (offset width : Nat) : Nat := beNat (fieldAt bytes offset width)

/-- A signed field. -/
def intAt (bytes : List Byte) (offset width : Nat) : Int := beInt (fieldAt bytes offset width)

/-- `n` modulo `256 ^ width` in `width` bytes, most significant first. -/
def natBytes : Nat → Nat → List Byte
  | 0, _ => []
  | width + 1, n => BitVec.ofNat 8 (n / 256 ^ width) :: natBytes width n

/-- `i` in two's complement in `width` bytes; a number that does not fit is shown modulo `256 ^ width`,
which is the model's choice (log 30). -/
def intBytes (width : Nat) (i : Int) : List Byte :=
  natBytes width (i % (256 ^ width : Nat)).toNat

/-- A flag or mark in 1 byte (R180). -/
def flagByte (b : Bool) : Byte := if b then 1 else 0

/-- An optional unsigned field after its presence byte; an absent field's bytes are 0 (R180). -/
def optNatBytes (width : Nat) : Option Nat → List Byte
  | some n => 1 :: natBytes width n
  | none => 0 :: natBytes width 0

/-- An optional signed field after its presence byte (R180). -/
def optIntBytes (width : Nat) : Option Int → List Byte
  | some i => 1 :: intBytes width i
  | none => 0 :: natBytes width 0

/-! ## Characters on a line (R168) -/

/-- A byte as it is sent: a low start bit, 8 data bits with the least significant first, and a high stop
bit, without parity (R168). -/
def lineChar (b : Byte) : LineChar := 1#1 ++ b ++ 0#1

/-- The byte of a received character: its data bits, whatever its stop bit (R168, R169). -/
def charByte (c : LineChar) : Byte := c.extractLsb' 1 8

/-- One byte time of an idle line, which is high (R168). -/
def idleChar : LineChar := BitVec.allOnes 10

/-! ## CRC and wire form (R171) -/

/-- One bit of the CRC: shift left, and subtract the generator 0x1021 where a bit falls out. -/
def crcBit (c : BitVec 16) : BitVec 16 :=
  if c.msb then (c <<< 1) ^^^ 0x1021 else c <<< 1

/-- One byte of the CRC, most significant bit first. -/
def crcByte (c : BitVec 16) (b : Byte) : BitVec 16 :=
  crcBit (crcBit (crcBit (crcBit (crcBit (crcBit (crcBit (crcBit
    (c ^^^ (b.setWidth 16 <<< 8)))))))))

/-- The CRC of some bytes, from initial value 0xFFFF. -/
def crc16 (bytes : List Byte) : BitVec 16 := bytes.foldl crcByte 0xFFFF

/-- The CRC's two bytes, high byte first. -/
def crcBytes (c : BitVec 16) : List Byte := [(c >>> 8).setWidth 8, c.setWidth 8]

/-- The bytes the CRC covers: from the destination byte to the last payload byte. -/
def frameCovered (f : Frame) : List Byte :=
  [f.dest, f.src, f.kind, f.tag] ++ natBytes 2 f.payload.length ++ f.payload

/-- The bytes of a frame as they go on the line (section 10.3.1). -/
def frameWire (f : Frame) : List Byte :=
  0xA5 :: (frameCovered f ++ crcBytes (crc16 (frameCovered f)))

/-- The frame that a receiver in HUNT reads from `bytes`, when they are exactly one frame: the start
byte, the header, as many payload bytes as its length field gives, at most 240, and a CRC that
matches (R169, R171). -/
def frameOfWire : List Byte → Option Frame
  | s :: dest :: src :: kind :: tag :: l1 :: l0 :: rest =>
    let length := beNat [l1, l0]
    let f : Frame := { dest, src, kind, tag, payload := rest.take length }
    if s = 0xA5 ∧ length ≤ Config.payloadSize ∧ rest.length = length + 2 ∧
        rest.drop length = crcBytes (crc16 (frameCovered f))
    then some f else none
  | _ => none

/-- A frame's characters on a line, back to back (R168). -/
def frameLine (f : Frame) : List LineInput := (frameWire f).map (fun b => .char (lineChar b))

/-- The bytes that go on the line when an alarm cuts a frame off while byte `pos` of `wire` is on
the line (R131): that byte finishes and two CRC bytes follow, computed over the bytes sent from the
destination byte on, each bit inverted; on the first CRC byte, the second is sent inverted; on the
last CRC byte nothing is left to replace (log 22). -/
def cutWire (wire : List Byte) (pos : Nat) : List Byte :=
  if wire.length ≤ pos + 1 then wire
  else if wire.length = pos + 2 then
    wire.take (pos + 1) ++ (wire.drop (pos + 1)).map (fun b => ~~~b)
  else
    wire.take (pos + 1) ++
      (crcBytes (crc16 ((wire.take (pos + 1)).drop 1))).map (fun b => ~~~b)

end Sys2Proof.Machine
end

