-- ==== Sys2Proof/Machine/Flags.lean ====
section
/-! DEFINITION. Flags and codes: the condition and mask words (chapter 8), the degrade-cause set
(R58), lane sets, and the codes that requests, responses and reports use (R181, R185). -/

namespace Sys2Proof.Machine

/-! ## Lanes -/

/-- The value on one axis. -/
def Lanes.get {α : Type} (l : Lanes α) : Lane → α
  | .az => l.az
  | .el => l.el
  | .rot => l.rot

/-- The lanes with one axis's value replaced. -/
def Lanes.set {α : Type} (l : Lanes α) (x : Lane) (a : α) : Lanes α :=
  match x with
  | .az => { l with az := a }
  | .el => { l with el := a }
  | .rot => { l with rot := a }

/-- A function applied on every axis. -/
def Lanes.map {α β : Type} (f : α → β) (l : Lanes α) : Lanes β := ⟨f l.az, f l.el, f l.rot⟩

/-- The lanes given by a function of the axis. -/
def Lanes.of {α : Type} (f : Lane → α) : Lanes α := ⟨f .az, f .el, f .rot⟩

/-- The lanes in the order in which values per lane are given: AZ, EL, ROT (R180). -/
def Lanes.toList {α : Type} (l : Lanes α) : List α := [l.az, l.el, l.rot]

/-- AZ, EL and ROT, in that order. -/
def allLanes : List Lane := [.az, .el, .rot]

/-- Some axis is marked. -/
def Lanes.any (l : Lanes Bool) : Bool := l.az || l.el || l.rot

/-- Every axis is marked. -/
def Lanes.all (l : Lanes Bool) : Bool := l.az && l.el && l.rot

/-- A lane's code (R185): 0 AZ, 1 EL, 2 ROT. -/
def laneCode : Lane → Nat
  | .az => 0
  | .el => 1
  | .rot => 2

/-- The lane of a code. -/
def laneOf : Nat → Option Lane
  | 0 => some .az
  | 1 => some .el
  | 2 => some .rot
  | _ => none

/-- An axis byte (R185): the lane's code, or 0xFF for none. -/
def axisByte : Option Lane → Byte
  | some x => BitVec.ofNat 8 (laneCode x)
  | none => 0xFF

/-- A lane set in a byte: bit 0 AZ, bit 1 EL, bit 2 ROT (R106, R185). -/
def laneSetByte (l : Lanes Bool) : Byte :=
  BitVec.ofNat 8 ((if l.az then 1 else 0) + (if l.el then 2 else 0) + (if l.rot then 4 else 0))

/-! ## Conditions and masks (R145 to R152) -/

/-- A condition's bit number (section 8.1). -/
def Condition.bit : Condition → Nat
  | .underrun => 0
  | .limitApproach => 1
  | .range => 2
  | .trackError => 3
  | .guideReject => 4
  | .offsetStack => 5
  | .shutterOffTarget => 6

/-- The seven conditions in bit order. -/
def allConditions : List Condition :=
  [.underrun, .limitApproach, .range, .trackError, .guideReject, .offsetStack, .shutterOffTarget]

/-- Whether a word marks a condition. -/
def marks (w : BitVec 8) (c : Condition) : Bool := w.getLsbD c.bit

/-- The word with a condition marked. -/
def mark (w : BitVec 8) (c : Condition) : BitVec 8 := w ||| (1 <<< c.bit)

/-- The pending set (R146): the flags whose condition is unmasked. -/
def pendingSet (flags mask : BitVec 8) : BitVec 8 := flags &&& ~~~mask &&& 0x7F

/-- The condition a sample evaluation takes as a fault (R150): the first, in bit order, whose flag
is set and which is unmasked. -/
def pendingFault (flags mask : BitVec 8) : Option Condition :=
  allConditions.find? (fun c => marks flags c && !marks mask c)

/-! ## Degrade causes (R58) -/

/-- The axes that contribute a cause. -/
def Causes.get (d : Causes) : DegradeCause → Lanes Bool
  | .trackError => d.trackError
  | .limitClamp => d.limitClamp
  | .rangeHold => d.rangeHold
  | .underrunHold => d.underrunHold

/-- The contributions with one cause's axes replaced. -/
def Causes.put (d : Causes) (c : DegradeCause) (l : Lanes Bool) : Causes :=
  match c with
  | .trackError => { d with trackError := l }
  | .limitClamp => { d with limitClamp := l }
  | .rangeHold => { d with rangeHold := l }
  | .underrunHold => { d with underrunHold := l }

/-- The position at which a lane is held under a masked underrun: while its evaluations fall beyond
end_time and UNDERRUN_HOLD is contributed (R44). -/
def Causes.hold (d : Causes) (x : Lane) : Option Int :=
  if d.underrunHold.get x then d.heldAt.get x else none

/-- Whether a cause is in the set: at least one axis contributes it. -/
def Causes.has (d : Causes) (c : DegradeCause) : Bool := (d.get c).any

/-- Whether no cause is in the set. -/
def Causes.isEmpty (d : Causes) : Bool :=
  !(d.trackError.any || d.limitClamp.any || d.rangeHold.any || d.underrunHold.any)

/-! ## Motion states -/

/-- The running states (R47). -/
def MotionState.running : MotionState → Bool
  | .slewing | .settling | .tracking | .degraded => true
  | .parked | .idle | .stopping | .parking | .alarm => false

/-- The states that follow the composed trajectory (R47, R113). -/
def MotionState.composing : MotionState → Bool
  | .settling | .tracking | .degraded => true
  | .parked | .idle | .slewing | .stopping | .parking | .alarm => false

/-- The states in which the tables may be loaded and the controller reset (R79, R83, R187), and in
which FORWARD_QUIET passes (R177). -/
def MotionState.resting : MotionState → Bool
  | .parked | .idle | .alarm => true
  | .slewing | .settling | .tracking | .degraded | .stopping | .parking => false

/-! ## Codes (R181, R185) -/

/-- Motion state codes. -/
def motionCode : MotionState → Byte
  | .parked => 0
  | .idle => 1
  | .slewing => 2
  | .settling => 3
  | .tracking => 4
  | .degraded => 5
  | .stopping => 6
  | .parking => 7
  | .alarm => 8

/-- Status codes (R181). -/
def statusCode : Status → Byte
  | .ok => 0x00
  | .badParam => 0x01
  | .unknownRequest => 0x02
  | .wrongState => 0x03
  | .notReady => 0x04
  | .notFound => 0x05
  | .noTarget => 0x06
  | .duplicateId => 0x07
  | .queueFull => 0x08
  | .shelfFull => 0x09
  | .storeFull => 0x0A
  | .chainFull => 0x0B
  | .chainClosed => 0x0C
  | .gap => 0x0D
  | .discontinuous => 0x0E
  | .outOfLimits => 0x0F
  | .rateLimit => 0x10
  | .locked => 0x11
  | .timeStep => 0x12
  | .duplicateTerm => 0x13
  | .tableFull => 0x14
  | .offsetRange => 0x15
  | .stackFault => 0x16

/-- Outcome codes. -/
def verdictCode : Verdict → Byte
  | .completed => 0
  | .expired => 1
  | .withdrawn => 2
  | .faulted => 3
  | .abandoned => 4

/-- Alarm codes. -/
def alarmCode : AlarmKind → Byte
  | .encoderSilent => 0x20
  | .hardLimit => 0x21
  | .permitLost => 0x22
  | .driveFault => 0x23

/-- Reason codes. -/
def reasonCode : Reason → Byte
  | .none => 0x00
  | .request => 0x01
  | .flush => 0x02
  | .stop => 0x03
  | .park => 0x04
  | .lapse => 0x05
  | .aborted => 0x06
  | .noTrajectory => 0x07
  | .guideLost => 0x08
  | .condition c => BitVec.ofNat 8 (0x10 + c.bit)
  | .byAlarm k => alarmCode k

/-- Place codes; LISTED, which only Read Captures gives, is 3 (R180). -/
def placeCode : Place → Byte
  | .queued => 0
  | .active => 1
  | .shelved => 2

/-- Guide state codes. -/
def guideCode : GuideState → Byte
  | .off => 0
  | .acquiring => 1
  | .locked => 2
  | .lost => 3

/-- Guide cause codes. -/
def guideCauseCode : GuideCause → Byte
  | .tracking => 0
  | .start => 1
  | .frame => 2
  | .acquireTimeout => 3
  | .watch => 4
  | .reject => 5
  | .stop => 6

/-- Shutter edge codes. -/
def edgeCode : ShutterEdge → Byte
  | .opening => 0
  | .closing => 1

/-- Indicator codes: 1 OVER, 2 UNDER (R185); 0 for none (log 15). -/
def indicatorCode : Option Indicator → Byte
  | none => 0
  | some .over => 1
  | some .under => 2

/-- Refusal reason codes of FORWARD_REFUSED. -/
def refusedCode : RefusedReason → Byte
  | .motionKind => 0
  | .busy => 1
  | .full => 2

/-- Queue mode codes (R186). -/
def modeCode : QueueMode → Byte
  | .hold => 0
  | .run => 1

/-- Class codes, in the order R1 lists the values (log 15). -/
def classCode : TargetClass → Byte
  | .normal => 0
  | .opportunity => 1

/-- wrap_pref codes (R9). -/
def wrapPrefCode : WrapPref → Byte
  | .auto => 0
  | .negative => 1
  | .positive => 2

/-- guide_mode codes (R9). -/
def guideModeCode : GuideMode → Byte
  | .none => 0
  | .optional => 1
  | .required => 2

/-- Report kind codes (R185). -/
def reportKindCode : ReportDetail → Byte
  | .targetOutcome .. => 0x01
  | .phaseChange .. => 0x02
  | .refillWanted .. => 0x03
  | .segmentsWanted .. => 0x04
  | .conditionRaised .. => 0x05
  | .alarmRaised .. => 0x06
  | .commitTaken .. => 0x07
  | .pulseLoad .. => 0x08
  | .shutterUnattached .. => 0x09
  | .forwardRefused .. => 0x0A
  | .supervisionLapse .. => 0x0B
  | .guideState .. => 0x0C

/-- A report's detail bytes (R185). -/
def reportDetailBytes : ReportDetail → List Byte
  | .targetOutcome v r axis place => [verdictCode v, reasonCode r, axisByte axis, placeCode place]
  | .phaseChange left entered => [motionCode left, motionCode entered]
  | .refillWanted lane endTime => axisByte (some lane) :: natBytes 8 endTime
  | .segmentsWanted needed covered => natBytes 8 needed ++ [laneSetByte covered]
  | .conditionRaised c masked qualifier captureTime =>
    [BitVec.ofNat 8 c.bit, flagByte masked, qualifier] ++ natBytes 8 captureTime
  | .alarmRaised k axis first => [alarmCode k, axisByte axis, flagByte first]
  | .commitTaken count deferred => natBytes 1 count ++ [flagByte deferred]
  | .pulseLoad refused value captured step =>
    flagByte refused :: natBytes 8 value ++ natBytes 8 captured ++ intBytes 8 step
  | .shutterUnattached edge state => [edgeCode edge, motionCode state]
  | .forwardRefused toSite axis kind tag station reason =>
    [flagByte toSite, axisByte (some axis), kind, tag, station, refusedCode reason]
  | .supervisionLapse state interval grace =>
    motionCode state :: natBytes 2 interval ++ natBytes 2 grace
  | .guideState left entered cause az el lastSeq =>
    [guideCode left, guideCode entered, guideCauseCode cause] ++ intBytes 4 az ++ intBytes 4 el ++
      optNatBytes 2 lastSeq

/-- A REPORT frame's payload (section 10.3.6). -/
def reportPayload (r : Report) : List Byte :=
  [reportKindCode r.detail, flagByte r.precededByLoss] ++ natBytes 8 r.time ++
    natBytes 2 r.targetId ++ reportDetailBytes r.detail

/-- A TELEMETRY frame's payload (section 10.3.7). -/
def telemetryPayload (e : TelemetryEntry) : List Byte :=
  axisByte (some e.axis) :: natBytes 8 e.sampleTime ++ optIntBytes 4 e.commanded ++
    optIntBytes 4 e.measured ++ optIntBytes 4 e.error ++ [motionCode e.state] ++
    natBytes 2 e.targetId ++
    [BitVec.ofNat 8 ((if e.fault then 1 else 0) + (if e.limitSwitch then 2 else 0) +
      (if e.braked then 4 else 0) + (if e.holdMark then 8 else 0))]

end Sys2Proof.Machine
end

