-- ==== Sys2Proof/Machine/Operands.lean ====
section
/-! DEFINITION. The operand forms: the parameters of the requests and the payloads of the frames, read
from their bytes by the layouts that the requests' own rules and section 10.3 give. -/

namespace Sys2Proof.Machine

/-! ## Target records (R9, R12) -/

/-- The statistics of a record at admission (R3). -/
def Statistics.empty : Statistics :=
  { activationTime := none, acquisitionTime := none, dwellCounted := 0, degradedTime := 0
    maxError := .const 0, wrapShort := false, wrapK := none }

/-- wrap_pref by its code (R9). -/
def wrapPrefOf : Nat → Option WrapPref
  | 0 => some .auto
  | 1 => some .negative
  | 2 => some .positive
  | _ => none

/-- guide_mode by its code (R9). -/
def guideModeOf : Nat → Option GuideMode
  | 0 => some .none
  | 1 => some .optional
  | 2 => some .required
  | _ => none

/-- An optional field: its value where its presence mark is set (R9). -/
def ifMarked {α : Type} (marked : Bool) (a : α) : Option α := if marked then some a else none

/-- rot_mode with rot_fixed: present with FIXED, absent with FOLLOW (R1, R10). -/
def rotModeOf (code : Nat) (fixed : Option Int) : Option RotMode :=
  match code, fixed with
  | 0, none => some .follow
  | 1, some angle => some (.fixed angle)
  | _, _ => none

/-- The record that the first 30 parameter bytes of a submit request give, where its fields pass the
conditions that both submit requests share (R9, R10, R12): the field ranges, the agreement of
rot_mode and rot_fixed, the order of the windows, and a latest_start not yet passed. -/
def recordOf (p : List Byte) (cls : TargetClass) (timeValid : Bool) (mount : Nat) :
    Option TargetRecord :=
  let presence := BitVec.ofNat 8 (natAt p 2 1)
  let earliestStart := ifMarked (presence.getLsbD 0) (natAt p 3 8)
  let latestStart := ifMarked (presence.getLsbD 1) (natAt p 11 8)
  let dwell := natAt p 19 4
  let ordered :=
    match earliestStart, latestStart with
    | some e, some l => decide (e < l)
    | _, _ => true
  let passed := timeValid && latestStart.any (fun l => decide (l < mount))
  match wrapPrefOf (natAt p 23 1),
      rotModeOf (natAt p 24 1) (ifMarked (presence.getLsbD 2) (intAt p 25 4)),
      guideModeOf (natAt p 29 1) with
  | some wrapPref, some rotMode, some guideMode =>
    if natAt p 0 2 ≠ 0 ∧ 1000 ≤ dwell ∧ dwell ≤ 14400000 ∧ ordered = true ∧ passed = false then
      some
        { targetId := natAt p 0 2, cls, earliestStart, latestStart, dwell, wrapPref, rotMode
          guideMode, stats := .empty, captures := [], captureOverflow := false }
    else none
  | _, _, _ => none

/-- after_id of a Submit Target, where marked present (R9). -/
def afterIdOf (p : List Byte) : Option Nat :=
  ifMarked ((BitVec.ofNat 8 (natAt p 2 1)).getLsbD 3) (natAt p 30 2)

/-! ## Segments (R12, R30) -/

/-- The segment that 28 bytes at `offset` give. -/
def segmentAt (p : List Byte) (offset : Nat) : Segment :=
  { start := natAt p offset 8
    duration := natAt p (offset + 8) 4
    c0 := intAt p (offset + 12) 4
    c1 := intAt p (offset + 16) 4
    c2 := intAt p (offset + 20) 4
    c3 := intAt p (offset + 24) 4 }

/-- The segments of an Append Segments request (R30). -/
def appendedSegments (p : List Byte) : List Segment :=
  (List.range (natAt p 3 1)).map (fun i => segmentAt p (4 + 28 * i))

/-- The seeds of a Submit Opportunity, each a lane code and a segment (R12). -/
def seedsOf (p : List Byte) : List (Nat × Segment) :=
  (List.range (natAt p 30 1)).map (fun i => (natAt p (31 + 29 * i) 1, segmentAt p (32 + 29 * i)))

/-! ## Tables (R79, R81, R82, R96, R133, R176) -/

/-- The limits that 16 bytes at `offset` give (R79). -/
def limitsAt (p : List Byte) (offset : Nat) : AxisLimits :=
  { hardMin := intAt p offset 4
    softMin := intAt p (offset + 4) 4
    softMax := intAt p (offset + 8) 4
    hardMax := intAt p (offset + 12) 4 }

/-- A rounding mode by its code (R81). -/
def roundingOf : Nat → Option Rounding
  | 0 => some .nearestEven
  | 1 => some .floor
  | 2 => some .ceiling
  | 3 => some .towardZero
  | _ => none

/-- A 4-byte setting of 1..2,147,483,647 (R81). -/
def positive31 (n : Nat) : Bool := decide (1 ≤ n) && decide (n ≤ 2147483647)

/-- The axis record that 51 bytes at `offset` give, where every field lies in its range (R81). -/
def axisRecordAt (p : List Byte) (offset : Nat) : Option AxisRecord :=
  match roundingOf (natAt p (offset + 18) 1) with
  | none => none
  | some rounding =>
    let r : AxisRecord :=
      { node := BitVec.ofNat 8 (natAt p offset 1)
        countsPerTurn := natAt p (offset + 1) 4
        zero := intAt p (offset + 5) 4
        negative := decide (natAt p (offset + 9) 1 = 1)
        countMin := intAt p (offset + 10) 4
        countMax := intAt p (offset + 14) 4
        rounding
        lead := natAt p (offset + 19) 2
        maxVelocity := natAt p (offset + 21) 4
        maxAcceleration := natAt p (offset + 25) 4
        settleTol := natAt p (offset + 29) 4
        trackTol := natAt p (offset + 33) 4
        watch := natAt p (offset + 37) 4
        offsetRate := natAt p (offset + 41) 4
        parkAngle := intAt p (offset + 45) 4
        decimation := natAt p (offset + 49) 2 }
    if 0x02 ≤ r.node.toNat ∧ r.node.toNat ≤ 0xFE ∧
        65536 ≤ r.countsPerTurn ∧ r.countsPerTurn ≤ 1073741824 ∧
        natAt p (offset + 9) 1 ≤ 1 ∧ r.countMin < r.countMax ∧ r.lead ≤ 20000 ∧
        positive31 r.maxVelocity = true ∧ positive31 r.maxAcceleration = true ∧
        positive31 r.settleTol = true ∧ r.settleTol ≤ r.trackTol ∧ r.trackTol ≤ 2147483647 ∧
        2000 ≤ r.watch ∧ r.watch ≤ 100000 ∧ positive31 r.offsetRate = true ∧
        r.decimation ≤ 1000
    then some r else none

/-- A global setting: its default for a field value of 0, none outside its range (R82). -/
def settingOf (value low high default : Nat) : Option Nat :=
  if value = 0 then some default
  else if low ≤ value ∧ value ≤ high then some value
  else none

/-- The four global settings that 8 bytes at `offset` give (R82). -/
def globalsAt (p : List Byte) (offset : Nat) : Option Globals :=
  match settingOf (natAt p offset 2) 100 30000 2000, settingOf (natAt p (offset + 2) 2) 100 30000 1000,
      settingOf (natAt p (offset + 4) 2) 5 600 30, settingOf (natAt p (offset + 6) 2) 10 600 60 with
  | some settleTime, some recoverTime, some refillHorizon, some activationCover =>
    some { settleTime, recoverTime, refillHorizon, activationCover }
  | _, _, _, _ => none

/-- A term's kind, n and phase agree (R96, R99). -/
def termForm (kind n phase : Nat) : Bool :=
  if kind = 7 ∨ kind = 8 then
    decide (1 ≤ n) && decide (n ≤ 8) && (decide (phase = 1) || decide (phase = 2))
  else decide (kind ≤ 9) && decide (n = 0) && decide (phase = 0)

/-- A term is identified by its kind, n and phase (R96). -/
def Term.named (t : Term) (kind n phase : Nat) : Bool :=
  decide (t.kind = kind) && decide (t.n = n) && decide (t.phase = phase)

/-- Some value is in 1..3,600,000 (R132). -/
def guideBound (n : Nat) : Bool := decide (1 ≤ n) && decide (n ≤ 3600000)

/-- The guide configuration that 25 parameter bytes give, where every field lies in its range; the
part's own address and the drive proxies are no guider (R132, R133). -/
def guideConfigOf (p : List Byte) (address : Byte) : Option GuideConfig :=
  let g : GuideConfig :=
    { guider := BitVec.ofNat 8 (natAt p 0 1)
      azGain := natAt p 1 2, azClamp := natAt p 3 4, azLimit := natAt p 7 4
      elGain := natAt p 11 2, elClamp := natAt p 13 4, elLimit := natAt p 17 4
      qualityMin := natAt p 21 1, watch := natAt p 22 1, lostLimit := natAt p 23 2 }
  if p.length = 25 ∧ g.guider.toNat ≤ 0xFE ∧ g.guider ≠ address ∧
      ¬(0x30 ≤ g.guider.toNat ∧ g.guider.toNat ≤ 0x32) ∧ g.azGain ≤ 256 ∧ g.elGain ≤ 256 ∧
      guideBound g.azClamp = true ∧ guideBound g.azLimit = true ∧ guideBound g.elClamp = true ∧
      guideBound g.elLimit = true ∧ 1 ≤ g.qualityMin ∧ 1 ≤ g.watch ∧ g.watch ≤ 60 ∧
      g.lostLimit ≤ 3600
  then some g else none

/-- A proxy address's axis (section 10.2). -/
def proxyAxis (b : Byte) : Option Lane :=
  if b = 0x30 then some .az else if b = 0x31 then some .el else if b = 0x32 then some .rot else none

/-- An axis's proxy address (section 10.2). -/
def proxyOf : Lane → Byte
  | .az => 0x30
  | .el => 0x31
  | .rot => 0x32

/-- A forwarding action by its code (R176). -/
def forwardActionOf : Nat → Option ForwardAction
  | 0 => some .forward
  | 1 => some .forwardQuiet
  | 2 => some .drop
  | _ => none

/-- The forwarding entry that 4 bytes at `offset` give (R176). -/
def forwardEntryAt (p : List Byte) (offset : Nat) : Option ForwardEntry :=
  let low := natAt p (offset + 1) 1
  let high := natAt p (offset + 2) 1
  match proxyAxis (BitVec.ofNat 8 (natAt p offset 1)), forwardActionOf (natAt p (offset + 3) 1) with
  | some proxy, some action =>
    if 0x28 ≤ low ∧ low ≤ high ∧ high ≤ 0x2F then some { proxy, low, high, action } else none
  | _, _ => none

/-! ## Lane sets and offsets (R106) -/

/-- The lane set of a byte. -/
def laneSetOf (n : Nat) : Lanes Bool := ⟨n.testBit 0, n.testBit 1, n.testBit 2⟩

/-- Three 4-byte signed values at `offset`, for AZ, then EL, then ROT. -/
def lanesAt (p : List Byte) (offset : Nat) : Lanes Int :=
  ⟨intAt p offset 4, intAt p (offset + 4) 4, intAt p (offset + 8) 4⟩

/-! ## Frames (sections 10.3.2 and 10.3.4) -/

/-- A SAMPLE payload. -/
structure SampleFields where
  counts : Int
  age : Nat
  fault : Bool
  limitSwitch : Bool
  braked : Bool
  deriving DecidableEq, Repr

/-- The fields of a SAMPLE payload of 7 bytes. -/
def sampleOf (p : List Byte) : Option SampleFields :=
  if p.length = 7 then
    some
      { counts := intAt p 0 4, age := natAt p 4 2, fault := (natAt p 6 1).testBit 0
        limitSwitch := (natAt p 6 1).testBit 1, braked := (natAt p 6 1).testBit 2 }
  else none

/-- A GUIDE payload. -/
structure GuideFields where
  targetId : Nat
  sequence : Nat
  azCorr : Int
  elCorr : Int
  quality : Nat
  deriving DecidableEq, Repr

/-- The fields of a GUIDE payload of 13 bytes. -/
def guideOf (p : List Byte) : Option GuideFields :=
  if p.length = 13 then
    some
      { targetId := natAt p 0 2, sequence := natAt p 2 2, azCorr := intAt p 4 4
        elCorr := intAt p 8 4, quality := natAt p 12 1 }
  else none

/-! ## Result fields (R22, R23, R180) -/

/-- A rot_mode's code (R9). -/
def rotModeCode : RotMode → Byte
  | .follow => 0
  | .fixed _ => 1

/-- A record's submitted fields with their presence, in the order of the submit request (R9, R22,
log 15). -/
def recordBytes (r : TargetRecord) : List Byte :=
  let fixed := match r.rotMode with
    | .follow => none
    | .fixed angle => some angle
  natBytes 2 r.targetId ++ optNatBytes 8 r.earliestStart ++ optNatBytes 8 r.latestStart ++
    natBytes 4 r.dwell ++ [wrapPrefCode r.wrapPref] ++
    [rotModeCode r.rotMode] ++ optIntBytes 4 fixed ++
    [guideModeCode r.guideMode]

/-- A record's statistics (R3); dwell_counted in whole milliseconds, rounded down (log 16). -/
def statisticsBytes (st : Statistics) : List Byte :=
  optNatBytes 8 st.activationTime ++ optNatBytes 8 st.acquisitionTime ++
    natBytes 4 (st.dwellCounted / 1000) ++ natBytes 8 st.degradedTime ++
    (st.maxError.toList.map (natBytes 4)).flatten ++ [flagByte st.wrapShort] ++
    optIntBytes 1 st.wrapK

/-- Dwell remaining in whole milliseconds, rounded up (R61). -/
def shownDwell (micros : Nat) : Nat := (micros + 999) / 1000

/-- A capture entry (R4, R24). -/
def captureBytes (c : Capture) : List Byte :=
  [edgeCode c.edge] ++ natBytes 8 c.time ++ [motionCode c.state] ++ natBytes 4 c.maxError ++
    natBytes 1 c.stackTop

/-- A segment as Read Chain returns it (R37). -/
def segmentBytes (g : Segment) : List Byte :=
  natBytes 8 g.start ++ natBytes 4 g.duration ++ intBytes 4 g.c0 ++ intBytes 4 g.c1 ++
    intBytes 4 g.c2 ++ intBytes 4 g.c3

/-- A pointing term as Read Terms returns it (R96, R101). -/
def termBytes (t : Term) : List Byte :=
  natBytes 1 t.kind ++ natBytes 1 t.n ++ natBytes 1 t.phase ++ intBytes 4 t.c

/-- Three values per lane, AZ, EL, ROT, in 4 signed bytes each (R180). -/
def lanesBytes (l : Lanes Int) : List Byte := (l.toList.map (intBytes 4)).flatten

/-- The alarm record's first cause: kind, axis and mount time (R186); for no cause the kind is 0, the
axis 0xFF and the time 0. -/
def firstCauseBytes : Option FirstCause → List Byte
  | none => [0, 0xFF] ++ natBytes 8 0
  | some c => [alarmCode c.kind, axisByte c.axis] ++ natBytes 8 c.time

end Sys2Proof.Machine
end

