-- ==== Sys2Proof/Machine/Chains.lean ====
section
/-! DEFINITION. The Segment Store (chapter 2): segments, chains and their headers, evaluation,
coverage, retirement, and the checks a segment passes before it is stored. -/

namespace Sys2Proof.Machine

/-! ## Segments (R25, R27, R28) -/

/-- A segment's end (R27). It is not held below 2^64; what shows it shows it modulo 2^64, which is the
model's choice (log 30). -/
def Segment.finish (g : Segment) : Nat := g.start + g.duration

/-- A segment's position in mas times 10^18, at `tau` microseconds after its start (R28). -/
def segPos18 (g : Segment) (tau : Int) : Int :=
  g.c0 * 10 ^ 18 + g.c1 * tau * 10 ^ 12 + g.c2 * tau ^ 2 * 10 ^ 6 + g.c3 * tau ^ 3

/-- A segment's velocity in mas/s times 10^12, at `tau` microseconds after its start (R28). -/
def segVel12 (g : Segment) (tau : Int) : Int :=
  g.c1 * 10 ^ 12 + 2 * g.c2 * tau * 10 ^ 6 + 3 * g.c3 * tau ^ 2

/-- A segment's acceleration in mas/s^2 times 10^6, at `tau` microseconds after its start (R32). -/
def segAcc6 (g : Segment) (tau : Int) : Int := 2 * g.c2 * 10 ^ 6 + 6 * g.c3 * tau

/-- The value of a segment at mount time `t`, which may lie before its start, in 1/256 mas and
1/256 mas/s (R28). -/
def segValue (g : Segment) (t : Nat) : Motion :=
  let tau : Int := (t : Int) - g.start
  { pos := roundDiv (unitsOf (segPos18 g tau)) (10 ^ 18)
    vel := roundDiv (unitsOf (segVel12 g tau)) (10 ^ 12) }

/-- The end a header takes from its last segment (R33). -/
def segEnding (g : Segment) : ChainEnd :=
  let m := segValue g g.finish
  { time := g.finish, position := m.pos, velocity := m.vel }

/-- The segment whose value a started chain has at `t`: the last one that starts at or before `t`,
or the first one where none does (R28: the later segment at a boundary; tau negative before the
first). -/
def pickSegment (t : Nat) : List Segment → Option Segment
  | [] => none
  | [g] => some g
  | g :: g' :: gs => if g'.start ≤ t then pickSegment t (g' :: gs) else some g

/-! ## Chains (R26, R38) -/

/-- A chain's count (R26). -/
def Chain.count (c : Chain) : Nat := c.segments.length

/-- A header as it is opened at admission (R26). -/
def openChain (owner : Nat) (lane : Lane) : Chain :=
  { owner, lane, segments := [], ending := none, closed := false, refillArmed := true }

/-- The value of a chain at `t` (R28): none beyond end_time, and none while no segment remains. -/
def Chain.valueAt (c : Chain) (t : Nat) : Option Motion :=
  match c.ending with
  | none => none
  | some e => if e.time < t then none else (pickSegment t c.segments).map (segValue · t)

/-- A cross-lane read (R29): end_position with velocity 0 where the chain has no value (log 20). -/
def Chain.crossRead (c : Chain) (t : Nat) : Motion :=
  match c.valueAt t with
  | some m => m
  | none => { pos := (c.ending.map (·.position)).getD 0, vel := 0 }

/-- A chain as its lane reads it while it is held at a position: that position with velocity 0, at every
time (R44). -/
def Chain.heldAt (c : Chain) (position : Int) : Chain :=
  { c with segments := [], ending := some { time := 0, position, velocity := 0 } }

/-- A chain covers mount time `t` (R38). -/
def Chain.covers (c : Chain) (t : Nat) : Bool :=
  match c.segments.head?, c.ending with
  | some g, some e => decide (g.start ≤ t) && decide (t ≤ e.time)
  | _, _ => false

/-- A chain covers the interval from `a` to `b` (R38). -/
def Chain.coversSpan (c : Chain) (a b : Nat) : Bool :=
  (c.covers a && c.covers b) ||
    (c.closed && c.covers a && decide ((c.ending.map (·.time)).getD 0 < b))

/-- Retirement: every segment whose end is earlier than `t` goes (R39, R40). -/
def Chain.retire (c : Chain) (t : Nat) : Chain :=
  { c with segments := c.segments.dropWhile (fun g => decide (g.finish < t)) }

/-- Segments stored at the end of a chain at mount time `now` (R33, R42); `horizon` is the refill
horizon in microseconds. -/
def Chain.append (c : Chain) (gs : List Segment) (now horizon : Nat) : Chain :=
  match gs.getLast? with
  | none => c
  | some g =>
    { c with
      segments := c.segments ++ gs
      ending := some (segEnding g)
      refillArmed := c.refillArmed || decide (now + horizon ≤ g.finish) }

/-- A chain cut at `t`, the start of a remaining segment (R36). -/
def Chain.truncate (c : Chain) (t : Nat) : Chain :=
  let kept := c.segments.filter (fun g => decide (g.start < t))
  let freed := c.segments.filter (fun g => decide (t ≤ g.start))
  let ending : Option ChainEnd :=
    match kept.getLast?, freed.head? with
    | some g, _ => some { segEnding g with time := t }
    | none, some g => some { time := t, position := unitsOf g.c0, velocity := unitsOf g.c1 }
    | none, none => c.ending
  { c with segments := kept, ending, closed := false, refillArmed := true }

/-! ## The store -/

/-- The chain of a target and lane. -/
def findChain (cs : List Chain) (id : Nat) (x : Lane) : Option Chain :=
  cs.find? (fun c => c.owner == id && c.lane == x)

/-- The store with a function applied to the chain of a target and lane. -/
def mapChain (cs : List Chain) (id : Nat) (x : Lane) (f : Chain → Chain) : List Chain :=
  cs.map (fun c => if c.owner == id && c.lane == x then f c else c)

/-- The store after a target's chains are released (R45). -/
def releaseChains (cs : List Chain) (id : Nat) : List Chain := cs.filter (fun c => c.owner != id)

/-- The store after a target's ended segments are retired (R40). -/
def retireTarget (cs : List Chain) (id t : Nat) : List Chain :=
  cs.map (fun c => if c.owner == id then c.retire t else c)

/-- LOADED slots: the sum of the counts over all chains (R25). -/
def loadedSlots (cs : List Chain) : Nat := (cs.map Chain.count).sum

/-- FREE slots (R25). -/
def freeSlots (cs : List Chain) : Nat := Config.segmentSlots - loadedSlots cs

/-- A record's needed lanes (R1). -/
def TargetRecord.neededLanes (r : TargetRecord) : List Lane :=
  match r.rotMode with
  | .follow => [.az, .el, .rot]
  | .fixed _ => [.az, .el]

/-- A lane's chain covers the interval from `a` to `b`. -/
def laneCovers (cs : List Chain) (id : Nat) (x : Lane) (a b : Nat) : Bool :=
  match findChain cs id x with
  | some c => c.coversSpan a b
  | none => false

/-- A target covers the interval from `a` to `b` (R38). -/
def targetCovers (cs : List Chain) (r : TargetRecord) (a b : Nat) : Bool :=
  r.neededLanes.all (fun x => laneCovers cs r.targetId x a b)

/-- A target's chains cover mount time `t` (R86). -/
def targetCoversTime (cs : List Chain) (r : TargetRecord) (t : Nat) : Bool :=
  r.neededLanes.all (fun x =>
    match findChain cs r.targetId x with
    | some c => c.covers t
    | none => false)

/-- A cross-lane read of a target's chain (R29); a chain that is not there reads 0. -/
def readLane (cs : List Chain) (id : Nat) (x : Lane) (t : Nat) : Motion :=
  match findChain cs id x with
  | some c => c.crossRead t
  | none => { pos := 0, vel := 0 }

/-! ## Segment checks (R32) -/

/-- Plus or minus the square root of `n` is at most `x`. -/
def signedSqrtLe (negative : Bool) (n x : Int) : Bool :=
  if negative then decide (-x ≤ 0) || decide (x * x ≤ n)
  else decide (0 ≤ x) && decide (n ≤ x * x)

/-- Plus or minus the square root of `n` is at least `x`. -/
def signedSqrtGe (negative : Bool) (n x : Int) : Bool :=
  if negative then decide (0 ≤ -x) && decide (n ≤ x * x)
  else decide (x ≤ 0) || decide (x * x ≤ n)

/-- The position at one end of a segment lies within the limits, in mas. -/
def endWithin (g : Segment) (lo hi tau : Int) : Bool :=
  decide (lo * 10 ^ 18 ≤ segPos18 g tau) && decide (segPos18 g tau ≤ hi * 10 ^ 18)

/-- At the point where a quadratic segment's velocity is zero, its position lies within the limits
where that point is inside the segment. -/
def vertexWithin (g : Segment) (lo hi : Int) : Bool :=
  if g.c2 = 0 then true
  else
    let s := g.c2.sign
    let inside := decide (0 < -s * g.c1) &&
      decide (-s * g.c1 * 10 ^ 6 < 2 * g.c2.natAbs * g.duration)
    let scaledPos := s * (4 * g.c2 * g.c0 - g.c1 * g.c1)
    !inside || (decide (lo * (4 * g.c2.natAbs) ≤ scaledPos) &&
      decide (scaledPos ≤ hi * (4 * g.c2.natAbs)))

/-- At one of the two points where a cubic segment's velocity is zero, its position lies within the
limits where that point is inside the segment. The point is `(b + root) / (3 |c3|)` seconds with
`root` plus or minus the square root of the discriminant, and all comparisons are exact (log 14). -/
def extremumWithin (g : Segment) (lo hi : Int) (negative : Bool) : Bool :=
  let d := g.c2 * g.c2 - 3 * g.c1 * g.c3
  if d < 0 then true
  else
    let s := g.c3.sign
    let b := -s * g.c2
    let inside := !signedSqrtLe negative d (-b) &&
      !signedSqrtGe negative (10 ^ 12 * d) (3 * g.c3.natAbs * g.duration - 10 ^ 6 * b)
    let base := 27 * g.c3 * g.c3 * g.c0 - 3 * g.c1 * g.c2 * g.c3 + 2 * d * g.c2
    let flipped := if g.c3 < 0 then !negative else negative
    !inside || (signedSqrtLe flipped (4 * d * d * d) (base - 27 * g.c3 * g.c3 * lo) &&
      signedSqrtGe flipped (4 * d * d * d) (base - 27 * g.c3 * g.c3 * hi))

/-- Every position of a segment over its whole duration lies within `lo..hi` mas: both ends, and
each point between them at which the velocity is zero (R32, test 5). -/
def positionsWithin (g : Segment) (lo hi : Int) : Bool :=
  endWithin g lo hi 0 && endWithin g lo hi g.duration &&
    (if g.c3 = 0 then vertexWithin g lo hi
     else extremumWithin g lo hi false && extremumWithin g lo hi true)

/-- The speed of a segment nowhere exceeds `vmax` mas/s (R32, test 6). -/
def speedWithin (g : Segment) (vmax : Nat) : Bool :=
  let s := g.c3.sign
  let inside := decide (0 < -s * g.c2) &&
    decide (-s * g.c2 * 10 ^ 6 < 3 * g.c3.natAbs * g.duration)
  decide ((segVel12 g 0).natAbs ≤ vmax * 10 ^ 12) &&
    decide ((segVel12 g g.duration).natAbs ≤ vmax * 10 ^ 12) &&
    (!inside || decide ((3 * g.c1 * g.c3 - g.c2 * g.c2).natAbs ≤ vmax * (3 * g.c3.natAbs)))

/-- The acceleration of a segment nowhere exceeds `amax` mas/s^2 (R32, test 6). -/
def accelerationWithin (g : Segment) (amax : Nat) : Bool :=
  decide ((segAcc6 g 0).natAbs ≤ amax * 10 ^ 6) &&
    decide ((segAcc6 g g.duration).natAbs ≤ amax * 10 ^ 6)

/-- The position and velocity of a segment's start join the end reached so far (R32, test 4). -/
def joins (g : Segment) (e : ChainEnd) : Bool :=
  decide ((unitsOf g.c0 - e.position).natAbs ≤ 5 * 256) &&
    decide ((unitsOf g.c1 - e.velocity).natAbs ≤ 50 * 256)

/-- The tests of R32 on one segment, in their order; `reached` is the end of the chain so far,
absent while it has not started. None means that the segment passes. -/
def checkSegment (limits : Option (Lanes AxisLimits)) (axes : Option (Lanes AxisRecord)) (x : Lane)
    (reached : Option ChainEnd) (g : Segment) : Option Status :=
  if g.duration < 100000 ∨ 600000000 < g.duration then some .badParam
  else if x = .az ∧ reached.isNone ∧ (g.c0 < 0 ∨ 1295999999 < g.c0) then some .badParam
  else if reached.any (fun e => decide (g.start ≠ e.time)) then some .gap
  else if reached.any (fun e => !joins g e) then some .discontinuous
  else if x ≠ .az ∧ limits.isNone then some .notReady
  else if x ≠ .az ∧ limits.any (fun l => !positionsWithin g (l.get x).softMin (l.get x).softMax)
    then some .outOfLimits
  else
    match axes with
    | none => some .notReady
    | some a =>
      if speedWithin g (a.get x).maxVelocity && accelerationWithin g (a.get x).maxAcceleration
      then none else some .rateLimit

/-- The per-segment tests in request order (R31, step 7): the first failing status with its index
in the request, counted from `index`. -/
def checkSegments (limits : Option (Lanes AxisLimits)) (axes : Option (Lanes AxisRecord))
    (x : Lane) : Option ChainEnd → Nat → List Segment → Option (Status × Nat)
  | _, _, [] => none
  | reached, index, g :: gs =>
    match checkSegment limits axes x reached g with
    | some st => some (st, index)
    | none => checkSegments limits axes x (some (segEnding g)) (index + 1) gs

end Sys2Proof.Machine
end

