-- ==== Sys2Proof/Machine/Ops.lean ====
section
/-! DEFINITION. The operations that many commands share: reports, the queue and its departures, the
motion state's entries, the guide state's moves, the axis ports' slots, the taking of a request and
the passing of mount time. -/

namespace Sys2Proof.Machine

/-! ## Reading the state -/

/-- The target_id in the active slot, or 0 (R47, R185, R189). -/
def State.activeId (s : State) : Nat :=
  match s.seq.active with
  | some a => a.record.targetId
  | none => 0

/-- What stands for an axis record while no axis table is loaded: node 0x02 (R115, R129) and
decimation 0 (R127). Nothing else of it is read then. -/
def AxisRecord.unloaded : AxisRecord :=
  { node := 0x02, countsPerTurn := 65536, zero := 0, negative := false, countMin := 0, countMax := 1
    rounding := .nearestEven, lead := 0, maxVelocity := 1, maxAcceleration := 1, settleTol := 1
    trackTol := 1, watch := 2000, offsetRate := 1, parkAngle := 0, decimation := 0 }

/-- An axis's record, or what stands for it while no axis table is loaded. -/
def State.axis (s : State) (x : Lane) : AxisRecord :=
  match s.planner.axes with
  | some a => a.get x
  | none => .unloaded

/-- What stands for an axis's limits while no limit table is loaded; no rule reads it, since every
state that plans or composes has a table (R90). -/
def AxisLimits.unloaded : AxisLimits :=
  { hardMin := -1296000000, softMin := -1296000000, softMax := 1296000000, hardMax := 1296000000 }

/-- An axis's limits, or what stands for them while no limit table is loaded. -/
def State.limit (s : State) (x : Lane) : AxisLimits :=
  match s.planner.limits with
  | some l => l.get x
  | none => .unloaded

/-- The refill horizon in microseconds (R41). -/
def State.horizon (s : State) : Nat := s.planner.globals.refillHorizon * 1000000

/-! ## Reports (R182, R183) -/

/-- A report offered to the Report Unit: it joins the tail, with the loss marker, or is dropped. -/
def offerReport (u : ReportUnit) (detail : ReportDetail) (time targetId : Nat) : ReportUnit :=
  if u.queue.length < Config.reportSize then
    { u with
      queue := u.queue ++ [{ detail, time, targetId, precededByLoss := u.lossMarker }]
      lossMarker := false }
  else { u with lost := true, lossMarker := true }

/-- A block offers a report of an event taken now. -/
def State.report (s : State) (detail : ReportDetail) (targetId : Nat) : State :=
  { s with rep := offerReport s.rep detail s.time.mount targetId }

/-! ## The queue and the departures (R7, R20, R21, R53) -/

/-- The head's target_id, or 0. -/
def headId : List TargetRecord → Nat
  | [] => 0
  | r :: _ => r.targetId

/-- The target_ids, in queue order, of some of a queue's records. -/
def queuedIds (q : List TargetRecord) (p : TargetRecord → Bool) : List Nat :=
  (q.filter p).map (·.targetId)

/-- The Target Queue replaced. A starvation spell ends when the record stops being head (R53), a
start-time-reached event concerns that head only (R164), and a window-expiry event has no effect on a
record that has left the queue (R15). -/
def State.setQueue (s : State) (q : List TargetRecord) : State :=
  { s with
    seq.queue := q
    seq.starved := s.seq.starved && decide (headId q = headId s.seq.queue)
    seq.startHanded := s.seq.startHanded && decide (headId q = headId s.seq.queue)
    seq.expiryHanded := queuedIds q (fun r => s.seq.expiryHanded.contains r.targetId) }

/-- The outcome list with a departing record appended; of 16 the oldest is dropped first (R21). -/
def pushOutcome (l : List OutcomeEntry) (e : OutcomeEntry) : List OutcomeEntry :=
  (if Config.outcomeSize ≤ l.length then l.drop 1 else l) ++ [e]

/-- Steps 1 and 3 to 5 of a departure, for a record already removed from its place (R20). -/
def State.depart (s : State) (record : TargetRecord) (verdict : Verdict) (reason : Reason)
    (axis : Option Lane) (place : Place) : State :=
  { s with
    chains := releaseChains s.chains record.targetId
    seq.outcomes := pushOutcome s.seq.outcomes
      { record, verdict, reason, axis, time := s.time.mount, place }
    rep := offerReport s.rep (.targetOutcome verdict reason axis place) s.time.mount
      record.targetId }

/-- A queued record departs; the records behind it close up (R20). -/
def State.departQueued (s : State) (r : TargetRecord) (verdict : Verdict) (reason : Reason) :
    State :=
  (s.setQueue (s.seq.queue.filter (fun q => q.targetId != r.targetId))).depart r verdict reason
    none .queued

/-- A shelved entry departs; the entries above and below it close up (R20, R66). -/
def State.departShelved (s : State) (e : Running) (verdict : Verdict) (reason : Reason) : State :=
  State.depart
    { s with seq.shelf := s.seq.shelf.filter (fun q => q.record.targetId != e.record.targetId) }
    e.record verdict reason none .shelved

/-- Some queued records depart by one cause, one after another in the order given (R16, R19). -/
def State.departAllQueued (s : State) (rs : List TargetRecord) (verdict : Verdict)
    (reason : Reason) : State :=
  rs.foldl (fun s r => s.departQueued r verdict reason) s

/-- Every shelved entry leaves ABANDONED from the top down (R64, R69, R72). -/
def State.abandonShelf (s : State) (reason : Reason) : State :=
  s.seq.shelf.foldl (fun s e => s.departShelved e .abandoned reason) s

/-- The active slot's record and context changed. -/
def State.mapActive (s : State) (f : Running → Running) : State :=
  { s with seq.active := s.seq.active.map f }

/-- The active record's statistics changed. -/
def State.mapStats (s : State) (f : Statistics → Statistics) : State :=
  s.mapActive (fun a => { a with record.stats := f a.record.stats })

/-- The active context changed. -/
def State.mapContext (s : State) (f : Context → Context) : State :=
  s.mapActive (fun a => { a with ctx := f a.ctx })

/-- A DEGRADED spell ends: its duration joins degraded_time (R59; log 18 for a backward step). -/
def State.endSpell (s : State) : State :=
  match s.seq.spell with
  | none => s
  | some sp =>
    { s.mapStats (fun st =>
        { st with degradedTime := st.degradedTime + (s.time.mount - sp.start) }) with
      seq.spell := none }

/-- The active target departs: its spell ends, and what the Servo Path keeps for it is dropped
(R20, R58, R59, R124, R125). -/
def State.departActive (s : State) (verdict : Verdict) (reason : Reason) (axis : Option Lane) :
    State :=
  match s.endSpell.seq.active with
  | none => s
  | some a =>
    State.depart
      { s.endSpell with
        seq.active := none
        servo.causes := .empty
        servo.settle := none
        servo.recover := none }
      a.record verdict reason axis .active

/-! ## The guide state (R138, R142) -/

/-- The active guide context changed. -/
def State.mapGuide (s : State) (f : GuideContext → GuideContext) : State :=
  s.mapContext (fun c => { c with guide := f c.guide })

/-- The GUIDE_STATE report of a change from `left`, with the accumulator and last sequence as they
stand now (R138). -/
def State.reportGuide (s : State) (left : GuideState) (cause : GuideCause) : State :=
  match s.seq.active with
  | none => s
  | some a =>
    s.report (.guideState left a.ctx.guide.state cause (wholeMas a.ctx.guide.accAz)
      (wholeMas a.ctx.guide.accEl) a.ctx.guide.lastSeq) a.record.targetId

/-- The guide watch in seconds, from the configuration as it stands; a free value of 1..60 s while
the configuration is empty (log 7). -/
def State.guideWatch (s : State) : Nat :=
  match s.guide with
  | some g => g.watch
  | none => 1 + Config.freeSeconds s.freeIndex % 60

/-- The lost limit in seconds, from the configuration as it stands; a free value of 0..3,600 s while
the configuration is empty (log 7). -/
def State.lostLimit (s : State) : Nat :=
  match s.guide with
  | some g => g.lostLimit
  | none => Config.freeSeconds s.freeIndex % 3601

/-- The free-value counter advanced where the guide configuration is empty. -/
def State.usedGuideFree (s : State) : State :=
  { s with freeIndex := if s.guide.isNone then s.freeIndex + 1 else s.freeIndex }

/-- The move from OFF to ACQUIRING: last sequence none, and the watch started with length 3 x watch
(R138). -/
def State.startAcquiring (s : State) (cause : GuideCause) : State :=
  (s.mapGuide (fun g =>
    { g with
      state := .acquiring
      lastSeq := none
      watch := some { elapsed := 0, length := 3 * s.guideWatch * 1000000 } })).usedGuideFree
    |>.reportGuide .off cause

/-- The lost count started by an entry to LOST: for a REQUIRED target whose lost limit is not 0
(R142). -/
def State.lostCount (s : State) : Option Count :=
  match s.seq.active with
  | some a =>
    if a.record.guideMode = .required ∧ s.lostLimit ≠ 0 then
      some { elapsed := 0, length := s.lostLimit * 1000000 }
    else none
  | none => none

/-- The move to LOST from `left` (R138, R142). -/
def State.loseGuide (s : State) (left : GuideState) (cause : GuideCause) : State :=
  (s.mapGuide (fun g => { g with state := .lost, watch := none, lost := s.lostCount })).usedGuideFree
    |>.reportGuide left cause

/-! ## Entering a motion state (R47) -/

/-- The staged terms copied over the active ones at an entry, where a commit waits (R103). -/
def State.deferredCommit (s : State) : State :=
  if s.corr.commitPending then
    State.report { s with corr.active := s.corr.staged, corr.commitPending := false }
      (.commitTaken s.corr.staged.length true) s.activeId
  else s

/-- What the entry to TRACKING does: the first acquisition_time, and guiding started where guide_mode
asks for it and the guide hold is clear (R56, R138). -/
def State.enterTracking (s : State) : State :=
  let s := s.mapStats (fun st =>
    { st with acquisitionTime := some (st.acquisitionTime.getD s.time.mount) })
  match s.seq.active with
  | some a =>
    if a.record.guideMode ≠ .none ∧ a.ctx.guide.hold = false ∧ a.ctx.guide.state = .off
    then s.startAcquiring .tracking else s
  | none => s

/-- What leaving the present motion state does: a spell ends with DEGRADED, and the settle
measurement is discarded with SETTLING (R59, R124). -/
def State.leaveMotion (s : State) : State :=
  match s.seq.motion with
  | .degraded => s.endSpell
  | .settling => { s with servo.settle := none }
  | .parked | .idle | .slewing | .tracking | .stopping | .parking | .alarm => s

/-- A change of motion state: leaving the old one, the PHASE_CHANGE report, and what the entry does
(R47, R56, R59, R103, R124). -/
def State.enter (s : State) (m : MotionState) : State :=
  let left := s.seq.motion
  let s := s.leaveMotion
  let s := State.report { s with seq.motion := m } (.phaseChange left m) s.activeId
  match m with
  | .slewing | .stopping | .idle => s.deferredCommit
  | .settling =>
    { s with servo.settle := some { beginTime := s.time.mount, seen := .const false } }
  | .tracking => s.enterTracking
  | .degraded =>
    { s with
      seq.spell := some
        { start := s.time.mount, underrunSeen := s.servo.causes.has .underrunHold } }
  | .parked | .parking | .alarm => s

/-! ## Degrade causes (R58, R60) -/

/-- An axis's contribution to a cause added; a cause that enters the set in TRACKING leads to
DEGRADED, and UNDERRUN_HOLD marks a running spell (R58, R59). -/
def State.addCause (s : State) (c : DegradeCause) (x : Lane) : State :=
  let s := { s with
    servo.causes := s.servo.causes.put c ((s.servo.causes.get c).set x true)
    seq.spell := s.seq.spell.map (fun sp =>
      { sp with underrunSeen := sp.underrunSeen || decide (c = .underrunHold) }) }
  if s.seq.motion = .tracking then s.enter .degraded else s

/-- The contributions to a cause replaced by fewer; when that leaves the set empty in DEGRADED, the
state becomes SETTLING if the spell has seen UNDERRUN_HOLD, else TRACKING (R60). -/
def State.lowerCause (s : State) (c : DegradeCause) (axes : Lanes Bool) : State :=
  let t := { s with servo.causes := s.servo.causes.put c axes }
  if t.seq.motion = .degraded ∧ t.servo.causes.isEmpty ∧ !s.servo.causes.isEmpty then
    t.enter (if t.seq.spell.any (·.underrunSeen) then .settling else .tracking)
  else t

/-- An axis's contribution to a cause removed, where it has one (R60). -/
def State.removeCause (s : State) (c : DegradeCause) (x : Lane) : State :=
  if (s.servo.causes.get c).get x then s.lowerCause c ((s.servo.causes.get c).set x false) else s

/-! ## Axis ports (R129 to R131) -/

/-- The RELEASE frame to drive node `node` (section 10.3.3). -/
def releaseFrame (node : Byte) : Frame :=
  { dest := node, src := 0x01, kind := 0x24, tag := 0, payload := [] }

/-- One axis port changed. -/
def State.mapPort (s : State) (x : Lane) (f : AxisPort → AxisPort) : State :=
  { s with ports := s.ports.set x (f (s.ports.get x)) }

/-- A RELEASE placed in each control slot (R50, R73, R130). -/
def State.releaseAll (s : State) : State :=
  { s with ports := .of (fun x =>
      { s.ports.get x with control := some (releaseFrame (s.axis x).node) }) }

/-- At entry to PARKED: the waiting SETPOINT discarded and a BRAKE placed on each port (R130). -/
def State.brakeAll (s : State) : State :=
  { s with ports := .of (fun x =>
      { s.ports.get x with setpoint := none, control := some (brakeFrame (s.axis x).node) }) }

/-- An in-flight SETPOINT cut off at an entry to ALARM; any other frame goes on (R131). -/
def cutInFlight (f : InFlight) : InFlight :=
  if f.frame.kind = 0x20 ∧ f.cut = false then
    { f with wire := cutWire f.wire f.pos, cut := true }
  else f

/-- What each axis port does at an entry to ALARM (R131). -/
def State.alarmPorts (s : State) : State :=
  { s with ports := .of (fun x =>
      { s.ports.get x with
        tx := { (s.ports.get x).tx with inFlight := (s.ports.get x).tx.inFlight.map cutInFlight }
        setpoint := none
        control := some (brakeFrame (s.axis x).node) }) }

/-- Entry to PARKED: BRAKE on each port, no plan, and the encoder watches stopped (R71, R84,
R128). -/
def State.enterParked (s : State) : State :=
  State.enter
    { s.brakeAll with planner.current := .none, servo.watch := .const none } .parked

/-- The encoder watches started on all three axes (R128). -/
def State.startWatches (s : State) : State :=
  { s with servo.watch := .of (fun x =>
      some { restart := s.time.mount, interval := (s.axis x).watch }) }

/-! ## Taking a request (R173, R174) -/

/-- The request command that a REQUEST payload names by its code (R180). -/
def requestOf : List Byte → Instr
  | [] => .unknownRequest
  | code :: _ =>
    match code.toNat with
    | 0x01 => .submitTarget
    | 0x02 => .submitOpportunity
    | 0x03 => .withdrawTarget
    | 0x04 => .flushQueue
    | 0x05 => .runQueue
    | 0x06 => .holdQueue
    | 0x07 => .readTarget
    | 0x08 => .readOutcome
    | 0x09 => .readCaptures
    | 0x0A => .adjustDwell
    | 0x10 => .appendSegments
    | 0x11 => .closeChain
    | 0x12 => .truncateChain
    | 0x13 => .readChain
    | 0x18 => .unpark
    | 0x19 => .park
    | 0x1A => .stop
    | 0x1B => .clearAlarm
    | 0x20 => .writeTerm
    | 0x21 => .deleteTerm
    | 0x22 => .commitTerms
    | 0x23 => .readTerms
    | 0x24 => .pushOffset
    | 0x25 => .popOffset
    | 0x26 => .replaceTopOffset
    | 0x27 => .clearOffsets
    | 0x28 => .readOffsets
    | 0x30 => .configureGuide
    | 0x31 => .startGuiding
    | 0x32 => .stopGuiding
    | 0x38 => .setMasks
    | 0x39 => .clearConditions
    | 0x3A => .readConditions
    | 0x40 => .loadAxes
    | 0x41 => .loadLimits
    | 0x42 => .lockLimits
    | 0x43 => .loadForwarding
    | 0x44 => .setReportDestination
    | 0x45 => .enableSupervision
    | 0x48 => .setTime
    | 0x49 => .setTimeAtPulse
    | 0x4A => .readTime
    | 0x4B => .peekTime
    | 0x50 => .readStatus
    | 0x51 => .resetController
    | _ => .unknownRequest

/-- The request code of a request command (R180); the other commands have none. -/
def requestCode : Instr → Option Byte
  | .submitTarget => some 0x01
  | .submitOpportunity => some 0x02
  | .withdrawTarget => some 0x03
  | .flushQueue => some 0x04
  | .runQueue => some 0x05
  | .holdQueue => some 0x06
  | .readTarget => some 0x07
  | .readOutcome => some 0x08
  | .readCaptures => some 0x09
  | .adjustDwell => some 0x0A
  | .appendSegments => some 0x10
  | .closeChain => some 0x11
  | .truncateChain => some 0x12
  | .readChain => some 0x13
  | .unpark => some 0x18
  | .park => some 0x19
  | .stop => some 0x1A
  | .clearAlarm => some 0x1B
  | .writeTerm => some 0x20
  | .deleteTerm => some 0x21
  | .commitTerms => some 0x22
  | .readTerms => some 0x23
  | .pushOffset => some 0x24
  | .popOffset => some 0x25
  | .replaceTopOffset => some 0x26
  | .clearOffsets => some 0x27
  | .readOffsets => some 0x28
  | .configureGuide => some 0x30
  | .startGuiding => some 0x31
  | .stopGuiding => some 0x32
  | .setMasks => some 0x38
  | .clearConditions => some 0x39
  | .readConditions => some 0x3A
  | .loadAxes => some 0x40
  | .loadLimits => some 0x41
  | .lockLimits => some 0x42
  | .loadForwarding => some 0x43
  | .setReportDestination => some 0x44
  | .enableSupervision => some 0x45
  | .setTime => some 0x48
  | .setTimeAtPulse => some 0x49
  | .readTime => some 0x4A
  | .peekTime => some 0x4B
  | .readStatus => some 0x50
  | .resetController => some 0x51
  | _ => none

/-- The four requests that act when broadcast (R174). -/
def actsBroadcast : Instr → Bool
  | .stop | .park | .holdQueue | .setTimeAtPulse => true
  | _ => false

/-- The Request Processor can take a request: it is broadcast or the response queue has room
(R173). -/
def State.canTake (s : State) (r : Request) : Bool :=
  decide (r.dest = 0xFF) || decide (s.site.responses.length < Config.responseSize)

/-- A response placed at the tail of the response queue (R173). -/
def State.respond (s : State) (r : Request) (reply : Reply) : State :=
  { s with
    site.responses := s.site.responses ++
      [{ dest := r.src, tag := r.tag, code := r.payload.headD 0, reply }] }

/-- The Request Processor takes the request at the head of the buffer, where that is a request that
`cmd` names and it can be taken: the request leaves the buffer, `body` acts on its parameters, and an
addressed one is answered (R173, R174; log 1, log 2). -/
def takeRequest (cmd : Instr) (body : List Byte → State → State × Reply) (s : State) : State :=
  match s.site.requests with
  | [] => s
  | r :: rest =>
    if requestOf r.payload = cmd ∧ s.canTake r = true then
      let s := { s with site.requests := rest }
      if r.dest = 0xFF then
        if actsBroadcast cmd then (body r.payload.tail s).1 else s
      else
        let p := body r.payload.tail s
        p.1.respond r p.2
    else s

/-- A refusal with no extra field (R180). -/
def refuse (s : State) (status : Status) : State × Reply := (s, { status, result := [] })

/-- A refusal with the extra fields its rule names (R180). -/
def refuseWith (s : State) (status : Status) (result : List Byte) : State × Reply :=
  (s, { status, result })

/-- An OK answer. -/
def accept (s : State) (result : List Byte) : State × Reply := (s, { status := .ok, result })

/-! ## Mount time (R61, R138, R142, R158, R166) -/

/-- Dwell is counting: TRACKING, and for a REQUIRED target LOCKED (R61). -/
def State.dwellCounts (s : State) : Bool :=
  match s.seq.active with
  | some a =>
    decide (s.seq.motion = .tracking) &&
      (decide (a.record.guideMode ≠ .required) || decide (a.ctx.guide.state = .locked))
  | none => false

/-- The guide watch and the lost count run: TRACKING or DEGRADED (R138, R142). -/
def State.guideRuns (s : State) : Bool :=
  decide (s.seq.motion = .tracking) || decide (s.seq.motion = .degraded)

/-- A count moved on. -/
def Count.plus (c : Count) (d : Nat) : Count := { c with elapsed := c.elapsed + d }

/-- Dwell lowered by `d` microseconds, to 0 at most, and dwell_counted raised by as much (R61,
log 17). -/
def countDwell (d : Nat) (a : Running) : Running :=
  { a with
    record.stats.dwellCounted := a.record.stats.dwellCounted + min d a.ctx.dwellRemaining
    ctx.dwellRemaining := a.ctx.dwellRemaining - d }

/-- While TIME_VALID is true, a move of mount time up to `value` goes from below the head's
earliest_start to it or above it (R164). -/
def State.startCrossed (s : State) (value : Nat) : Bool :=
  s.time.valid && s.seq.queue.head?.any (fun r => r.earliestStart.any (fun t =>
    decide (s.time.mount < t) && decide (t ≤ value)))

/-- `d` microseconds of mount time pass, by running or by a forward step: mount time, dwell, the
guide counts and the grace count move on, and a head whose start is reached has its event handed over
(R61, R138, R142, R158, R164, R166). -/
def State.passTime (s : State) (d : Nat) : State :=
  let t := if s.dwellCounts then s.mapActive (countDwell d) else s
  let t := if s.guideRuns then
      t.mapGuide (fun g => { g with watch := g.watch.map (·.plus d), lost := g.lost.map (·.plus d) })
    else t
  { t with
    time.mount := s.time.mount + d
    seq.startHanded := s.seq.startHanded || s.startCrossed (s.time.mount + d)
    seq.sup.graceCount := s.seq.sup.graceCount.map (· + d) }

/-- latest_start is present and passed (R2). -/
def windowPassed (now : Nat) (r : TargetRecord) : Bool :=
  match r.latestStart with
  | none => false
  | some t => decide (t < now)

/-- While TIME_VALID is true, every queued record whose latest_start mount time has passed has its
window-expiry event handed over; an event handed over before stays so whatever mount time does (R165). -/
def State.handExpiries (s : State) : State :=
  if s.time.valid then
    { s with seq.expiryHanded := queuedIds s.seq.queue (fun r =>
        windowPassed s.time.mount r || s.seq.expiryHanded.contains r.targetId) }
  else s

/-- A backward step: the running encoder watches and the supervision interval restart from the new
time, and nothing else moves (R166). -/
def State.turnBack (s : State) (value : Nat) : State :=
  { s with
    time.mount := value
    servo.watch := .of (fun x => (s.servo.watch.get x).map (fun _ =>
      { restart := value, interval := (s.axis x).watch }))
    seq.sup.timer := s.seq.sup.timer.map (fun _ => value) }

end Sys2Proof.Machine
end

