-- ==== Sys2Proof/Machine/Trig.lean ====
section
/-! DEFINITION. The pointing terms' contributions (R97): sines and cosines in fixed point of 160
fraction bits, from which each contribution is rounded to 1/256 mas (log 13). Angles are in
1/256 mas. -/

namespace Sys2Proof.Machine

/-- The fixed-point unit of sines and cosines. -/
def trigUnit : Nat := 2 ^ 160

/-- 2 pi times the fixed-point unit, rounded down. -/
def twoPi : Nat := 9182885614096437842769610399486622256908310048836

/-- One turn in 1/256 mas. -/
def turnUnits : Nat := 331776000000

/-- `fuel` terms of an alternating series whose term after `t`, at order `k`, is
`t * q / ((k + 1) * (k + 2))`, with `q` the square of the angle in fixed point. -/
def alternating : Nat → Nat → Nat → Nat → Int
  | 0, _, _, _ => 0
  | fuel + 1, k, q, t =>
    (t : Int) - alternating fuel (k + 2) q (t * q / (trigUnit * ((k + 1) * (k + 2))))

/-- The fixed-point radians of an angle of 1/256 mas. -/
def radians (a : Nat) : Nat := twoPi * a / turnUnits

/-- The sine of an angle of at most an eighth of a turn. -/
def sinEighth (a : Nat) : Int :=
  let r := radians a
  alternating 24 1 (r * r / trigUnit) r

/-- The cosine of an angle of at most an eighth of a turn. -/
def cosEighth (a : Nat) : Int :=
  let r := radians a
  alternating 24 0 (r * r / trigUnit) trigUnit

/-- The sine of an angle of at most a quarter turn. -/
def sinQuarter (a : Nat) : Int :=
  if 8 * a ≤ turnUnits then sinEighth a else cosEighth (turnUnits / 4 - a)

/-- The sine of an angle of at most half a turn. -/
def sinHalf (a : Nat) : Int :=
  if 4 * a ≤ turnUnits then sinQuarter a else sinQuarter (turnUnits / 2 - a)

/-- The sine of any angle, times the fixed-point unit. -/
def sinUnits (a : Int) : Int :=
  let r := (a % (turnUnits : Int)).toNat
  if 2 * r < turnUnits then sinHalf r else -sinHalf (r - turnUnits / 2)

/-- The cosine of any angle, times the fixed-point unit. -/
def cosUnits (a : Int) : Int := sinUnits (a + turnUnits / 4)

/-- E held within plus or minus 89 degrees, as every tan E and sec E takes it (R97). -/
def limitedE (e : Int) : Int := clampInt (unitsOf (-320400000)) (unitsOf 320400000) e

/-- `c * s / unit` in 1/256 mas, rounded to nearest with ties away from zero (R97). -/
def scaled (c s : Int) : Int := roundDiv (unitsOf c * s) trigUnit

/-- A term's contribution to axis `x` in 1/256 mas, at raw sky azimuth `a` and elevation `e`
(R96, R97). -/
def termContribution (t : Term) (x : Lane) (a e : Int) : Int :=
  let sinE := sinUnits (limitedE e)
  let cosE := (cosUnits (limitedE e)).toNat
  match t.kind, x with
  | 0, .az => unitsOf t.c
  | 1, .el => unitsOf t.c
  | 2, .az => roundDiv (unitsOf t.c * trigUnit) cosE
  | 3, .az => roundDiv (unitsOf t.c * sinE) cosE
  | 4, .az => -roundDiv (unitsOf t.c * cosUnits a * sinE) (trigUnit * cosE)
  | 4, .el => scaled t.c (sinUnits a)
  | 5, .az => roundDiv (unitsOf t.c * sinUnits a * sinE) (trigUnit * cosE)
  | 5, .el => scaled t.c (cosUnits a)
  | 6, .el => scaled t.c (cosUnits e)
  | 7, .az => scaled t.c (if t.phase = 1 then sinUnits (t.n * a) else cosUnits (t.n * a))
  | 8, .el => scaled t.c (if t.phase = 1 then sinUnits (t.n * e) else cosUnits (t.n * e))
  | 9, .rot => unitsOf t.c
  | _, _ => 0

/-- The pointing sum of a term table for axis `x` (R97, R113). -/
def pointingSum (terms : List Term) (x : Lane) (a e : Int) : Int :=
  (terms.map (fun t => termContribution t x a e)).sum

end Sys2Proof.Machine
end

