-- ==== Sys2Proof/Machine/Planner.lean ====
section
/-! DEFINITION. The Slew Planner (chapter 4) and the composition it shares with the Servo Path
(R113): profiles, the minimum time and its stretching, the wrap choice, stop profiles and park
slews. Positions are in 1/256 mas and velocities in 1/256 mas/s. -/

namespace Sys2Proof.Machine

/-! ## Composition (R105, R113) -/

/-- The effective offset of a lane in mas: the sum over the VALID entries (R105). -/
def OffsetStack.effective (st : OffsetStack) (x : Lane) : Int :=
  ((st.entries.take st.top).map (fun e => Lanes.get e x)).sum

/-- The sky value of a lane at `t` as a cross-lane read gives it, or rot_fixed (R29, R113). -/
def skyMotion (cs : List Chain) (r : TargetRecord) (x : Lane) (t : Nat) : Motion :=
  match x, r.rotMode with
  | .rot, .fixed angle => { pos := unitsOf angle, vel := 0 }
  | .az, _ => readLane cs r.targetId .az t
  | .el, _ => readLane cs r.targetId .el t
  | .rot, .follow => readLane cs r.targetId .rot t

/-- The wrap's part of an axis's angle (R113, step 2). -/
def wrapPart (x : Lane) (k : Int) : Int :=
  match x with
  | .az => unitsOf (k * Config.turn)
  | .el | .rot => 0

/-- The pointing sum of the active table for a target's axis at `t` (R113, step 3). -/
def pointingPart (terms : List Term) (cs : List Chain) (r : TargetRecord) (x : Lane) (t : Nat) :
    Int :=
  match x with
  | .rot => pointingSum terms .rot 0 0
  | .az | .el =>
    pointingSum terms x (readLane cs r.targetId .az t).pos (readLane cs r.targetId .el t).pos

/-- The guide accumulator's part of an axis's angle (R113, step 5). -/
def guidePart (g : GuideContext) (x : Lane) : Int :=
  match x with
  | .az => g.accAz
  | .el => g.accEl
  | .rot => 0

/-- The composition of an axis at `t` for a target, its context and a wrap, with the sky velocity
(R113; R114 without the blend rate). -/
def composed (terms : List Term) (cs : List Chain) (r : TargetRecord) (c : Context) (k : Int)
    (x : Lane) (t : Nat) : Motion :=
  { pos := (skyMotion cs r x t).pos + wrapPart x k + pointingPart terms cs r x t +
      c.applied.get x + guidePart c.guide x
    vel := (skyMotion cs r x t).vel }

/-- The composition of the active target's axis with the blend rate in its velocity (R113, R114). -/
def State.composition (s : State) (a : Running) (x : Lane) (t : Nat) : Motion :=
  let m := composed s.corr.active s.chains a.record a.ctx a.ctx.wrapK x t
  { m with vel := m.vel + unitsOf (a.ctx.blendRate.get x) }

/-- The composition of the active target's axis at the present mount time, with the lane's sky value held
where a masked underrun holds it (R44, R84, R113, R114; log 38). -/
def State.heldComposition (s : State) (a : Running) (x : Lane) : Motion :=
  match s.servo.causes.hold x with
  | none => s.composition a x s.time.mount
  | some p =>
    State.composition
      { s with chains := mapChain s.chains a.record.targetId x (fun c => c.heldAt p) } a x
      s.time.mount

/-- An angle clamped to an axis's soft limits, with velocity 0 where it lies outside (R93). -/
def clampSoft (l : AxisLimits) (m : Motion) : Motion :=
  if m.pos < unitsOf l.softMin then { pos := unitsOf l.softMin, vel := 0 }
  else if unitsOf l.softMax < m.pos then { pos := unitsOf l.softMax, vel := 0 }
  else m

/-! ## Profiles (R84 to R87, R91) -/

/-- A profile's value held within the bound of R84, with velocity 0 where it is clamped. -/
def clampBound (low high : Int) (m : Motion) : Motion :=
  if m.pos < low then { pos := low, vel := 0 }
  else if high < m.pos then { pos := high, vel := 0 }
  else m

/-- The sign of a change of velocity from `v` to `w`. -/
def rampSign (v w : Int) : Int := if v ≤ w then 1 else -1

/-- A slew profile before its bound is applied, at `tau` microseconds after the make time, with
`total` microseconds from the make time to the arrival (R85 to R87). -/
def slewShape (p : SlewAxis) (total tau : Nat) : Motion :=
  let v0 := p.origin.vel
  let v1 := p.target.vel
  let f : Int := 2 ^ 64
  let since : Int := (tau : Int) - Config.planningLead
  let left : Int := (total : Int) - tau
  let base := 20 * p.origin.pos + v0
  let up := rampSign (v0 * f) p.cruise
  let up' := rampSign p.cruise (v1 * f)
  if tau ≤ Config.planningLead then
    { pos := roundDiv (p.origin.pos * 10 ^ 6 + v0 * tau) (10 ^ 6), vel := v0 }
  else if left ≤ 0 then
    { pos := roundDiv (p.target.pos * 10 ^ 6 - v1 * left) (10 ^ 6), vel := v1 }
  else if since * p.accel * f ≤ 10 ^ 6 * (p.cruise - v0 * f).natAbs then
    { pos := roundDiv (base * 10 ^ 12 + 20 * 10 ^ 6 * v0 * since + 10 * up * p.accel * since ^ 2)
        (20 * 10 ^ 12)
      vel := roundDiv (v0 * 10 ^ 6 + up * p.accel * since) (10 ^ 6) }
  else if left * p.accel * f ≤ 10 ^ 6 * (v1 * f - p.cruise).natAbs then
    { pos := roundDiv (2 * p.target.pos * 10 ^ 12 - 2 * 10 ^ 6 * v1 * left +
        up' * p.accel * left ^ 2) (2 * 10 ^ 12)
      vel := roundDiv (v1 * 10 ^ 6 - up' * p.accel * left) (10 ^ 6) }
  else
    { pos := roundDiv (base * p.accel * f ^ 2 * 10 ^ 6 - up * (p.cruise - v0 * f) ^ 2 * 10 ^ 7 +
        20 * p.accel * f * p.cruise * since) (20 * p.accel * 2 ^ 128 * 10 ^ 6)
      vel := roundDiv p.cruise (2 ^ 64) }

/-- A slew's or park slew's value for an axis at mount time `t` (R84, R87). -/
def SlewPlan.value (p : SlewPlan) (x : Lane) (t : Nat) : Motion :=
  let a := p.axes.get x
  clampBound a.low a.high (slewShape a (p.arrival - p.makeTime) (t - p.makeTime))

/-- A stop profile's value for an axis at mount time `t`; before the make time, its value there (R84,
R91). -/
def StopPlan.value (p : StopPlan) (x : Lane) (t : Nat) : Motion :=
  let a := p.axes.get x
  let t := max t p.makeTime
  let tau : Int := (t - p.makeTime : Nat)
  let down := if 0 ≤ a.origin.vel then 1 else -1
  if a.restTime ≤ t then { pos := a.restPos, vel := 0 }
  else clampBound a.low a.high
    { pos := roundDiv (2 * 10 ^ 12 * a.origin.pos + 2 * 10 ^ 6 * a.origin.vel * tau -
        down * a.accel * tau ^ 2) (2 * 10 ^ 12)
      vel := roundDiv (10 ^ 6 * a.origin.vel - down * a.accel * tau) (10 ^ 6) }

/-- The value of the current plan for an axis at `t`; the hold position where there is none. -/
def State.planValue (s : State) (x : Lane) (t : Nat) : Motion :=
  match s.planner.current with
  | .slew p => p.value x t
  | .park p => p.value x t
  | .stop p => p.value x t
  | .none => { pos := s.seq.hold.get x, vel := 0 }

/-- The present commanded motion of each axis (R84): the profile's value, the hold position, or the
composition with its clamp or hold where a degrade cause applies (logs 21 and 38). -/
def State.present (s : State) : Lanes Motion :=
  .of (fun x =>
    match s.seq.motion with
    | .slewing | .stopping | .parking => s.planValue x s.time.mount
    | .parked | .idle | .alarm => { pos := s.seq.hold.get x, vel := 0 }
    | .settling | .tracking | .degraded =>
      match s.seq.active with
      | none => { pos := s.seq.hold.get x, vel := 0 }
      | some a =>
        if s.servo.causes.limitClamp.get x then
          clampSoft (s.limit x) (s.heldComposition a x)
        else s.heldComposition a x)

/-! ## Minimum times and stretching (R85, R87) -/

/-- An axis's greatest speed in 1/256 mas/s. -/
def AxisRecord.vmax (a : AxisRecord) : Int := unitsOf a.maxVelocity

/-- An axis's acceleration in 1/256 mas/s^2. -/
def AxisRecord.accel (a : AxisRecord) : Nat := 256 * a.maxAcceleration

/-- A motion with its velocity held within the axis's greatest speed (R84, R85). -/
def slowed (a : AxisRecord) (m : Motion) : Motion :=
  { m with vel := clampInt (-a.vmax) a.vmax m.vel }

/-- The minimum time, in microseconds rounded up, of a displacement that needs a cruise velocity at
or above both end velocities: `d` is 20 times the displacement (R85). -/
def riseTime (accel : Nat) (vmax v0 v1 d : Int) : Nat :=
  let a : Int := accel
  let sq := v0 ^ 2 + v1 ^ 2
  let q := d * a + 10 * sq
  if q ≤ 20 * vmax ^ 2 then
    (ceilDiv (isqrtUp (q * 200000000000).toNat - 10 ^ 6 * (v0 + v1)) accel).toNat
  else
    (ceilDiv (10 ^ 6 * (20 * vmax ^ 2 - 20 * (v0 + v1) * vmax + 10 * sq + a * d))
      (20 * accel * vmax.toNat)).toNat

/-- How 20 times a displacement times the acceleration stands against 10 times the change of squared
speed of the direct ramp: positive where more displacement is needed than the ramp gives (R85). -/
def excess (accel : Nat) (v0 v1 d : Int) : Int :=
  d * accel - 10 * (if v0 ≤ v1 then v1 ^ 2 - v0 ^ 2 else v0 ^ 2 - v1 ^ 2)

/-- The minimum time of an axis from a start state to an end state, in whole microseconds rounded up
(R85); `d` is 20 times the displacement. -/
def minTime (accel : Nat) (vmax v0 v1 d : Int) : Nat :=
  let e := excess accel v0 v1 d
  if e = 0 then (ceilDiv (10 ^ 6 * (v1 - v0).natAbs) accel).toNat
  else if 0 < e then riseTime accel vmax v0 v1 d
  else riseTime accel vmax (-v0) (-v1) (-d)

/-- The cruise velocity, times 2^64, at or above both end velocities with which the profile takes
`time` microseconds; none where there is no such velocity within `vmax` (R87, log 10). -/
def riseCruise (accel : Nat) (vmax v0 v1 d : Int) (time : Nat) : Option Int :=
  let a : Int := accel
  let b := a * time + 10 ^ 6 * (v0 + v1)
  let disc := b ^ 2 - 4 * (50000000000 * a * d + 500000000000 * (v0 ^ 2 + v1 ^ 2))
  if disc < 0 then none
  else
    let vc := roundDiv (b * 2 ^ 64 - isqrt (disc * 2 ^ 128).toNat) 2000000
    if vmax * 2 ^ 64 < vc then none else some vc

/-- The end velocity of the greater magnitude; of two that differ only in sign, the second, which is the
model's choice (R85, log 40). -/
def greaterSpeed (v0 v1 : Int) : Int := if v1.natAbs < v0.natAbs then v0 else v1

/-- The cruise velocity, times 2^64, with which a profile takes exactly `time` microseconds (R87):
between the end velocities where that reaches the displacement, else beyond them. Where the direct ramp
takes all of the time, every velocity between fits, and the one of greatest magnitude is taken (R85). -/
def cruiseFor (accel : Nat) (vmax v0 v1 d : Int) (time : Nat) : Option Int :=
  let a : Int := accel
  let lo := min v0 v1
  let hi := max v0 v1
  let e := 10 ^ 6 * excess accel v0 v1 d
  let span := 20 * (a * time - 10 ^ 6 * (hi - lo))
  if span = 0 ∧ e = 0 then some (greaterSpeed v0 v1 * 2 ^ 64)
  else if span ≤ 0 then none
  else if hi * span < e then riseCruise accel vmax v0 v1 d time
  else if e < lo * span then (riseCruise accel vmax (-v0) (-v1) (-d) time).map (fun v => -v)
  else some (roundDiv (e * 2 ^ 64) span.toNat)

/-! ## Planning (R86, R87, R92) -/

/-- 20 times an axis's displacement from its start state at the plan start to a target position. -/
def displacement (o m : Motion) : Int := 20 * m.pos - (20 * o.pos + o.vel)

/-- An axis's target state as a plan takes it: clamped to the soft limits, its velocity within the
greatest speed (R85, R86). -/
def State.planTarget (s : State) (x : Lane) (m : Motion) : Motion :=
  slowed (s.axis x) (clampSoft (s.limit x) m)

/-- An axis's minimum time from its start state at the plan start to a target state (R85). -/
def State.axisTime (s : State) (x : Lane) (o m : Motion) : Nat :=
  minTime (s.axis x).accel (s.axis x).vmax o.vel m.vel (displacement o m)

/-- The largest of the three axes' minimum times from their start states to some target states
(R86). -/
def State.passTimeTo (s : State) (origins targets : Lanes Motion) : Nat :=
  (allLanes.map (fun x => s.axisTime x (origins.get x) (targets.get x))).foldl max 0

/-- The target states of a slew whose passes took `t1` and `t2` (R87): the composed state at the arrival
for each axis; but where the arrival came from the second pass, an axis with the longest minimum time
keeps the profile of that pass, to the composed state at the end of the first (log 36). -/
def State.slewTargets (s : State) (origins second last : Lanes Motion) (t1 t2 : Nat) :
    Lanes Motion :=
  .of (fun x =>
    if t1 < t2 ∧ s.axisTime x (origins.get x) (second.get x) = t2 then second.get x
    else last.get x)

/-- An axis's profile stretched to `time` microseconds after the plan start (R87); the cruise
velocity is a free value where no cruise velocity takes exactly that time (log 6). -/
def State.stretch (s : State) (index : Nat) (x : Lane) (o m : Motion) (time : Nat) : SlewAxis :=
  let a := s.axis x
  let d := displacement o m
  { origin := o
    target := m
    accel := a.accel
    cruise :=
      match cruiseFor a.accel a.vmax o.vel m.vel d time with
      | some v => v
      | none => clampInt (-a.vmax) a.vmax (Config.freeCruise index o.vel m.vel d time) * 2 ^ 64
    low := min (unitsOf (s.limit x).softMin) o.pos
    high := max (unitsOf (s.limit x).softMax) o.pos }

/-- The plan that takes each axis from its origin to its target state at `arrival` (R86, R87). -/
def State.formPlan (s : State) (index : Nat) (origins targets : Lanes Motion) (arrival : Nat)
    (k : Int) : SlewPlan :=
  { makeTime := s.time.mount
    arrival
    wrapK := k
    wrapShort := false
    axes := .of (fun x => s.stretch (index + laneCode x) x (origins.get x) (targets.get x)
      (arrival - (s.time.mount + Config.planningLead))) }

/-- The park slew from some motions (R92). -/
def State.parkPlan (s : State) (origins : Lanes Motion) : SlewPlan :=
  let o : Lanes Motion := .of (fun x => slowed (s.axis x) (origins.get x))
  let targets : Lanes Motion :=
    .of (fun x => { pos := unitsOf (s.axis x).parkAngle, vel := 0 })
  s.formPlan s.freeIndex o targets
    (s.time.mount + Config.planningLead + s.passTimeTo o targets) 0

/-- The axis part of a stop profile from a motion (R91): the rest time is when it comes to rest, or
when it reaches a limit of the bound of R84 before. -/
def State.stopAxis (s : State) (x : Lane) (m : Motion) : StopAxis :=
  let a := s.axis x
  let o := slowed a m
  let low := min (unitsOf (s.limit x).softMin) o.pos
  let high := max (unitsOf (s.limit x).softMax) o.pos
  let speed := o.vel.natAbs
  let room := if 0 ≤ o.vel then high - o.pos else o.pos - low
  let rest := o.pos + roundDiv (o.vel * speed) (2 * a.accel)
  if speed ^ 2 ≤ 2 * a.accel * room then
    { origin := o, accel := a.accel, low, high, restPos := clampInt low high rest
      restTime := s.time.mount + (ceilDiv (10 ^ 6 * speed) a.accel).toNat }
  else
    { origin := o, accel := a.accel, low, high, restPos := if 0 ≤ o.vel then high else low
      restTime := s.time.mount +
        (ceilDiv (10 ^ 6 * speed - isqrt (10 ^ 12 * (speed ^ 2 - 2 * a.accel * room)).toNat)
          a.accel).toNat }

/-- The stop profile from some motions, which ends at the latest rest time (R91). -/
def State.stopPlan (s : State) (origins : Lanes Motion) : StopPlan :=
  let axes : Lanes StopAxis := .of (fun x => s.stopAxis x (origins.get x))
  { makeTime := s.time.mount, axes
    endTime := max axes.az.restTime (max axes.el.restTime axes.rot.restTime) }

/-! ## The wrap choice (R88, R89) -/

/-- The whole microseconds, rounded down, at which a segment's velocity is zero (R88, log 12). That a
segment which stands still throughout adds none is the model's choice (log 39). -/
def zeroVelocityTimes (g : Segment) : List Nat :=
  let offsets : List Int :=
    if g.c3 = 0 then
      if g.c2 = 0 then []
      else [(-g.c2.sign * g.c1 * 10 ^ 6) / (2 * g.c2.natAbs)]
    else
      let d := g.c2 * g.c2 - 3 * g.c1 * g.c3
      if d < 0 then []
      else
        let b := -g.c3.sign * g.c2 * 10 ^ 6
        let root := (10 ^ 12 * d).toNat
        [(b - isqrtUp root) / (3 * g.c3.natAbs), (b + isqrt root) / (3 * g.c3.natAbs)]
  (offsets.filter (fun o => decide (0 ≤ o) && decide (o ≤ (g.duration : Int)))).map
    (fun o => g.start + o.toNat)

/-- The test instants of a window of the AZ chain (R88). -/
def windowInstants (az : Option Chain) (first last : Nat) : List Nat :=
  let gs := (az.map (·.segments)).getD []
  let marks := (gs.map (·.start)) ++ (gs.map (·.finish)) ++ (gs.map zeroVelocityTimes).flatten
  [first, last] ++ marks.filter (fun t => decide (first ≤ t) && decide (t ≤ last)) ++
    (List.range ((last - first) / 1000000 + 1)).map (fun j => first + j * 1000000)

/-- An instant passes: the composed AZ angle, with the effective offset and without the guide
accumulator, lies within the AZ soft limits (R88). -/
def State.instantPasses (s : State) (r : TargetRecord) (c : Context) (k : Int) (t : Nat) : Bool :=
  let angle := (readLane s.chains r.targetId .az t).pos + wrapPart .az k +
    pointingPart s.corr.active s.chains r .az t + unitsOf (c.stack.effective .az)
  decide (unitsOf (s.limit .az).softMin ≤ angle) && decide (angle ≤ unitsOf (s.limit .az).softMax)

/-- The earlier of two optional instants. -/
def earlier (a : Option Nat) (t : Nat) : Option Nat :=
  match a with
  | none => some t
  | some u => some (min u t)

/-- Whether a window passes whole, and its feasible stretch (R88). -/
def windowResult (instants : List (Nat × Bool)) (first last : Nat) : Bool × Nat :=
  match (instants.filter (fun i => !i.2)).foldl (fun a i => earlier a i.1) none with
  | none => (true, last - first)
  | some bad =>
    (false, ((instants.filter (fun i => i.2 && decide (i.1 < bad))).map
      (fun i => i.1 - first)).foldl max 0)

/-- One wrap candidate for a target, planned from some origins (R86 to R88). -/
def State.candidate (s : State) (origins : Lanes Motion) (r : TargetRecord) (c : Context)
    (k : Int) : WrapCandidate :=
  let o : Lanes Motion := .of (fun x => slowed (s.axis x) (origins.get x))
  let raw := fun t x => composed s.corr.active s.chains r c k x t
  let targets := fun t => Lanes.of (fun x => s.planTarget x (raw t x))
  let start := s.time.mount + Config.planningLead
  if targetCoversTime s.chains r start = false then .uncovered start
  else
    let t1 := s.passTimeTo o (targets start)
    if targetCoversTime s.chains r (start + t1) = false then .uncovered (start + t1)
    else
      let t2 := s.passTimeTo o (targets (start + t1))
      let arrival := start + max t1 t2
      if targetCoversTime s.chains r arrival = false then .uncovered arrival
      else
        let az := findChain s.chains r.targetId .az
        let last := min (arrival + c.dwellRemaining)
          ((az.bind (fun ch => ch.ending.map (·.time))).getD arrival)
        let result := windowResult
          ((windowInstants az arrival last).map (fun t => (t, s.instantPasses r c k t)))
          arrival last
        .planned
          (s.formPlan (s.freeIndex + 3 * (k + 1).toNat) o
            (s.slewTargets o (targets (start + t1)) (targets arrival) t1 t2) arrival k)
          result.1 result.2 ((raw arrival .az).pos - (origins.get .az).pos).natAbs

/-- The better of two feasible or two infeasible candidates, the first having the lower k: the second
where `prefers` says so. -/
def pickWrap (prefers : WrapCandidate → WrapCandidate → Bool) :
    List WrapCandidate → Option WrapCandidate
  | [] => none
  | c :: cs => some (cs.foldl (fun best d => if prefers best d then d else best) c)

/-- A candidate's plan, where it was planned. -/
def WrapCandidate.plan? : WrapCandidate → Option SlewPlan
  | .uncovered _ => none
  | .planned p _ _ _ => some p

/-- A candidate's feasibility, stretch and distance. -/
def WrapCandidate.marks : WrapCandidate → Bool × Nat × Nat
  | .uncovered _ => (false, 0, 0)
  | .planned _ feasible stretch distance => (feasible, stretch, distance)

/-- The wrap choice among candidates listed from the lowest k up (R89; log 11 for the point that "no
cover" names). Where no candidate is feasible and every stretch is 0 the model answers "no trajectory",
also for a candidate whose arrival instant passes and whose next instant fails (log 41). -/
def chooseWrap (pref : WrapPref) (cs : List WrapCandidate) : WrapChoice :=
  let planned := cs.filter (fun c => c.plan?.isSome)
  let feasible := planned.filter (fun c => c.marks.1)
  let best := match pref with
    | .auto => pickWrap (fun b d => decide (d.marks.2.2 < b.marks.2.2)) feasible
    | .negative => pickWrap (fun _ _ => false) feasible
    | .positive => pickWrap (fun _ _ => true) feasible
  match best.bind (·.plan?) with
  | some p => .plan p
  | none =>
    match pickWrap (fun b d => decide (b.marks.2.1 < d.marks.2.1)) planned with
    | none =>
      .noCover ((cs.foldl (fun a c => match c with
        | .uncovered t => earlier a t
        | .planned .. => a) none).getD 0)
    | some c =>
      if c.marks.2.1 = 0 then .noTrajectory
      else
        match c.plan? with
        | some p => .plan { p with wrapShort := true }
        | none => .noTrajectory

/-- The wrap choice for a target from some origins (R88, R89). -/
def State.chooseWrapFor (s : State) (origins : Lanes Motion) (r : TargetRecord) (c : Context) :
    WrapChoice :=
  chooseWrap r.wrapPref
    [s.candidate origins r c (-1), s.candidate origins r c 0, s.candidate origins r c 1]

end Sys2Proof.Machine
end

