-- ==== Sys2Proof/Machine/Sequencer.lean ====
section
/-! DEFINITION. The Sequencer's shared operations (chapters 3 and 8): the activation test, the
end-of-target rule with its restores, the faults of conditions, and the alarms. -/

namespace Sys2Proof.Machine

/-! ## Activation (R51 to R54) -/

/-- A guide context as activation and preemption give it (R134). -/
def GuideContext.fresh : GuideContext :=
  { state := .off, accAz := 0, accEl := 0, lastSeq := none, hold := false, watch := none
    lost := none }

/-- A fresh context (R54, R105, R112, R134, R147). -/
def Context.fresh (dwell now : Nat) (k : Int) : Context :=
  { stack := { entries := List.replicate Config.stackSize (.const 0), top := 0 }
    applied := .const 0
    blendTime := .const now
    blendRate := .const 0
    guide := .fresh
    flags := 0
    indicator := none
    dwellRemaining := dwell * 1000
    wrapK := k }

/-- earliest_start is absent or has been reached (R2). -/
def startReached (r : TargetRecord) (now : Nat) : Bool :=
  match r.earliestStart with
  | none => true
  | some t => decide (t ≤ now)

/-- A running record with its context placed in the active slot under a plan: the statistics rewritten,
the plan current, and SLEWING entered (R54, R65, R67). -/
def State.takeSlot (s : State) (a : Running) (p : SlewPlan) : State :=
  let stats := { a.record.stats with
    wrapK := some p.wrapK, wrapShort := a.record.stats.wrapShort || p.wrapShort }
  State.enter
    { s with
      seq.active := some
        { record := { a.record with stats }, ctx := { a.ctx with wrapK := p.wrapK } }
      servo.causes := .empty
      servo.recover := none
      planner.current := .slew p
      freeIndex := s.freeIndex + 9 } .slewing

/-- A record's first activation: a fresh context and activation_time (R54, steps 2 to 4). -/
def State.activate (s : State) (r : TargetRecord) (p : SlewPlan) : State :=
  s.takeSlot
    { record := { r with stats := { r.stats with activationTime := some s.time.mount } }
      ctx := .fresh r.dwell s.time.mount p.wrapK } p

/-- The activation cover in microseconds (R52). -/
def State.cover (s : State) : Nat := s.planner.globals.activationCover * 1000000

/-- The needed lanes whose chains satisfy a test, as a lane set (R53, R185). -/
def TargetRecord.lanesWhere (r : TargetRecord) (test : Lane → Bool) : Lanes Bool :=
  .of (fun x => decide (x ∈ r.neededLanes) && test x)

/-- A coverage failure of the head: one SEGMENTS_WANTED for each spell (R53). -/
def State.starve (s : State) (r : TargetRecord) (needed : Nat) (covered : Lanes Bool) : State :=
  if s.seq.starved then s
  else State.report { s with seq.starved := true } (.segmentsWanted needed covered) r.targetId

/-- Steps 1 to 4 of the activation test for a head (R51). -/
def State.mayActivate (s : State) (inRule : Bool) (r : TargetRecord) : Bool :=
  (decide (s.seq.motion = .idle) || inRule) && decide (s.seq.mode = .run) && s.time.valid &&
    startReached r s.time.mount

/-- Where the activation test starts its slew from: the hold position, or the present commanded
motion that the end-of-target rule found (R52). -/
def State.holdMotion (s : State) : Lanes Motion := .of (fun x => { pos := s.seq.hold.get x, vel := 0 })

/-- The activation test (R51, R52), at most `fuel` heads: each head without a trajectory leaves and
the next is tested. -/
def activationTest (inRule : Bool) (origins : Lanes Motion) : Nat → State → State
  | 0, s => s
  | fuel + 1, s =>
    match s.seq.queue with
    | [] => s
    | r :: rest =>
      if s.mayActivate inRule r then
        let s := { s with chains := retireTarget s.chains r.targetId s.time.mount }
        match s.chooseWrapFor origins r (.fresh r.dwell s.time.mount 0) with
        | .noCover point =>
          s.starve r point (r.lanesWhere (fun x =>
            ((findChain s.chains r.targetId x).map (·.covers point)).getD false))
        | .noTrajectory =>
          activationTest inRule origins fuel (s.departQueued r .abandoned .noTrajectory)
        | .plan p =>
          if targetCovers s.chains r p.arrival (p.arrival + s.cover) then
            (s.setQueue rest).activate r p
          else
            s.starve r (p.arrival + s.cover) (r.lanesWhere (fun x =>
              laneCovers s.chains r.targetId x p.arrival (p.arrival + s.cover)))
      else s

/-- The activation test at an event of R51 outside the end-of-target rule. -/
def State.testActivation (s : State) : State :=
  activationTest false s.holdMotion s.seq.queue.length s

/-- Entry to IDLE with a hold position: no plan is held, and activation is tested (R48, R51, R84). -/
def State.enterIdle (s : State) (hold : Lanes Int) : State :=
  (State.enter { s with seq.hold := hold, planner.current := .none } .idle).testActivation

/-- A change of the queue followed by the activation test where it changed the head (R7, R51). -/
def State.retestIfHeadChanged (s : State) (before : State) : State :=
  if headId s.seq.queue = headId before.seq.queue then s else s.testActivation

/-! ## The end-of-target rule (R64, R65) -/

/-- The guide part of a restored context (R143). -/
def GuideContext.restored (g : GuideContext) : GuideContext :=
  { g with state := .off, lastSeq := none, watch := none, lost := none }

/-- A context as it comes back from the shelf (R65, R112, R143). Until its lanes are advanced it keeps the
blend rate it had when shelved, which is the model's choice (log 32). -/
def Context.restored (c : Context) (now : Nat) : Context :=
  { c with blendTime := .const now, guide := c.guide.restored }

/-- Restores from the top of the shelf down until one succeeds or the shelf is empty (R64, step 2;
R65). -/
def restoreShelf (origins : Lanes Motion) : Nat → State → State
  | 0, s => s
  | fuel + 1, s =>
    match s.seq.shelf with
    | [] => s
    | e :: rest =>
      let s := { s with
        seq.shelf := rest
        chains := retireTarget s.chains e.record.targetId s.time.mount }
      let fail := fun (s : State) =>
        restoreShelf origins fuel (s.depart e.record .abandoned .noTrajectory none .shelved)
      match s.chooseWrapFor origins e.record e.ctx with
      | .plan p =>
        if targetCoversTime s.chains e.record p.arrival then
          s.takeSlot { e with ctx := e.ctx.restored s.time.mount } p
        else fail s
      | .noCover _ => fail s
      | .noTrajectory => fail s

/-- The park slew begins: park pending is cleared and the state becomes PARKING (R64, R70, R71,
R75, R92). -/
def State.startPark (s : State) (origins : Lanes Motion) : State :=
  State.enter
    { s with
      planner.current := .park (s.parkPlan origins)
      freeIndex := s.freeIndex + 3
      seq.parkPending := false } .parking

/-- A stop profile begins (R91). -/
def State.startStop (s : State) (origins : Lanes Motion) : State :=
  State.enter { s with planner.current := .stop (s.stopPlan origins) } .stopping

/-- The end-of-target rule, from the commanded motion as it was just before the departure (R64, R76,
R84). -/
def State.endRule (s : State) (origins : Lanes Motion) : State :=
  let s := { s with seq.sup.graceCount := none }
  if s.seq.parkPending then (s.abandonShelf .lapse).startPark origins
  else
    let s := restoreShelf origins s.seq.shelf.length s
    if s.seq.active.isSome then s
    else
      let s := activationTest true origins s.seq.queue.length s
      if s.seq.active.isSome then s else s.startStop origins

/-- The active target leaves with an outcome and the end-of-target rule runs, in one event, from some
commanded motions (R64, R84). -/
def State.endActiveFrom (s : State) (origins : Lanes Motion) (verdict : Verdict)
    (reason : Reason) : State :=
  (s.departActive verdict reason none).endRule origins

/-- The active target leaves with an outcome and the end-of-target rule runs, in one event (R64). -/
def State.endActive (s : State) (verdict : Verdict) (reason : Reason) : State :=
  s.endActiveFrom s.present verdict reason

/-- Stop or Park in a running state: the active target leaves WITHDRAWN and the shelf ABANDONED, the queue
is held, and the stop profile begins; a grace count is cancelled (R69, R70, R76). -/
def State.haltRun (s : State) (reason : Reason) : State :=
  let t := (s.departActive .withdrawn reason none).abandonShelf reason
  State.startStop { t with seq.mode := .hold, seq.sup.graceCount := none } s.present

/-! ## Conditions (R148) -/

/-- The condition's flag set in the active context, and CONDITION_RAISED where it was clear (R148,
steps 1 and 2). -/
def State.flagCondition (s : State) (c : Condition) (qualifier : Byte) (captureTime : Nat) : State :=
  match s.seq.active with
  | none => s
  | some a =>
    let t := s.mapContext (fun ctx => { ctx with flags := mark ctx.flags c })
    if marks a.ctx.flags c then t
    else t.report (.conditionRaised c (marks s.cond.mask c) qualifier captureTime)
      a.record.targetId

/-- An occurrence of a condition taken for the active target (R148): flag, report, and the fault where
it is unmasked. No condition arises while the slot is empty. -/
def State.raiseCondition (s : State) (c : Condition) (qualifier : Byte) (captureTime : Nat) :
    State :=
  let t := s.flagCondition c qualifier captureTime
  if marks s.cond.mask c || s.seq.active.isNone then t else t.endActive .faulted (.condition c)

/-! ## Alarms (R72, R131, R155) -/

/-- Entry to ALARM from another state (R72, R116, R128, R131). -/
def State.enterAlarm (s : State) (k : AlarmKind) (axis : Option Lane) : State :=
  let t := (s.departActive .faulted (.byAlarm k) axis).abandonShelf .aborted
  let t := { t with
    seq.mode := .hold
    seq.parkPending := false
    seq.sup.graceCount := none
    planner.current := .none
    servo.watch := .const none
    servo.latest := t.servo.latest.map (Option.map (fun l : LatestSample =>
      { l with seenSinceAlarm := false })) }
  (t.enter .alarm).alarmPorts

/-- An alarm raised (R155). -/
def State.raiseAlarm (s : State) (k : AlarmKind) (axis : Option Lane) : State :=
  if s.seq.motion = .alarm then
    if (k, axis) ∈ s.cond.causeSet then s
    else
      State.report { s with cond.causeSet := s.cond.causeSet ++ [(k, axis)] }
        (.alarmRaised k axis false) s.activeId
  else
    State.enterAlarm
      (State.report
        { s with
          cond.first := some { kind := k, axis, time := s.time.mount }
          cond.causeSet := [(k, axis)] }
        (.alarmRaised k axis true) s.activeId) k axis

/-! ## Window expiry (R15, R16, R165) -/

/-- The queued records whose window-expiry event is handed over leave EXPIRED in queue order, whatever
mount time has done since, and no activation test follows here (R15, R16, R165). -/
def State.expireHanded (s : State) : State :=
  s.departAllQueued
    (s.seq.queue.filter (fun r => s.seq.expiryHanded.contains r.targetId)) .expired .none

end Sys2Proof.Machine
end

