-- ==== Sys2Proof/Machine/Guiding.lean ====
section
/-! DEFINITION. Guiding (chapter 7): the guide requests, GUIDE frames and the guide timers' events. -/

namespace Sys2Proof.Machine

/-! ## The guide requests (R133, R140, R141) -/

/-- A guide accumulator in whole mas, AZ then EL. -/
def accumulatorBytes (g : GuideContext) : List Byte :=
  intBytes 4 (wholeMas g.accAz) ++ intBytes 4 (wholeMas g.accEl)

/-- What Configure Guide answers: the active target's guide state and accumulator, or target_id 0
(R133, log 15). -/
def State.guideAnswer (s : State) : List Byte :=
  match s.seq.active with
  | some a => guideCode a.ctx.guide.state :: accumulatorBytes a.ctx.guide
  | none => natBytes 2 0

/-- Configure Guide (R133). -/
def configureGuideBody (p : List Byte) (s : State) : State × Reply :=
  match guideConfigOf p s.site.address with
  | none => refuse s .badParam
  | some g => accept { s with guide := some g } s.guideAnswer

def execConfigureGuide (s : State) : Host.Outcome State Fault Refusal :=
  .next (takeRequest .configureGuide configureGuideBody s)

/-- Start Guiding taken: the guide hold cleared, and OFF moved to ACQUIRING (R140). -/
def State.startGuide (s : State) (left : GuideState) : State :=
  let t := s.mapGuide (fun g => { g with hold := false })
  if left = .off then t.startAcquiring .start else t

/-- Start Guiding (R140). -/
def startGuidingBody (p : List Byte) (s : State) : State × Reply :=
  if p ≠ [] then refuse s .badParam
  else
    match s.seq.active with
    | none => refuse s .noTarget
    | some a =>
      if s.seq.motion = .slewing then refuse s .wrongState
      else if s.guide.isNone then refuse s .notReady
      else
        let t := s.startGuide a.ctx.guide.state
        accept t t.guideAnswer

def execStartGuiding (s : State) : Host.Outcome State Fault Refusal :=
  .next (takeRequest .startGuiding startGuidingBody s)

/-- A guide context after Stop Guiding (R141). -/
def GuideContext.stopped (g : GuideContext) (clear : Bool) : GuideContext :=
  { g with
    state := .off, hold := true, watch := none, lost := none
    accAz := if clear then 0 else g.accAz
    accEl := if clear then 0 else g.accEl }

/-- Stop Guiding taken (R141). -/
def State.stopGuide (s : State) (left : GuideState) (clear : Bool) : State :=
  let t := s.mapGuide (fun g => g.stopped clear)
  if left = .off then t else t.reportGuide left .stop

/-- Stop Guiding (R141). -/
def stopGuidingBody (p : List Byte) (s : State) : State × Reply :=
  if p.length ≠ 1 ∨ 1 < natAt p 0 1 then refuse s .badParam
  else
    match s.seq.active with
    | none => refuse s .noTarget
    | some a =>
      let t := s.stopGuide a.ctx.guide.state (decide (natAt p 0 1 = 1))
      accept t t.guideAnswer

def execStopGuiding (s : State) : Host.Outcome State Fault Refusal :=
  .next (takeRequest .stopGuiding stopGuidingBody s)

/-! ## GUIDE frames (R135 to R138) -/

/-- guide_seq is newer than the last sequence, or there is none (R135). -/
def newerSequence (last : Option Nat) (sequence : Nat) : Bool :=
  match last with
  | none => true
  | some l =>
    let d := (sequence + 65536 - l) % 65536
    decide (1 ≤ d) && decide (d ≤ 32767)

/-- The configuration by which a GUIDE frame is accepted, where it passes every test of R135. -/
def State.acceptsGuide (s : State) (a : Running) (src : Byte) (f : GuideFields) :
    Option GuideConfig :=
  match s.guide with
  | none => none
  | some g =>
    if src = g.guider ∧ f.targetId = a.record.targetId ∧ s.guideRuns = true ∧
        a.ctx.guide.state ≠ .off ∧ newerSequence a.ctx.guide.lastSeq f.sequence = true
    then some g else none

/-- A lane's step is rejected: beyond the clamp, or to a sum beyond the limit (R136). -/
def stepRejected (acc step : Int) (clamp limit : Nat) : Bool :=
  decide (256 * clamp < step.natAbs) || decide (256 * limit < (acc + step).natAbs)

/-- A lane's accumulator after a masked rejection: the step cut to the clamp, then the sum brought to
the nearer bound of the limit (R136, R137). -/
def clippedSum (acc step : Int) (clamp limit : Nat) : Int :=
  clampInt (-(256 * limit)) (256 * limit)
    (acc + clampInt (-(256 * clamp)) (256 * clamp) step)

/-- A lane's accumulator after a good frame whose lane may reject (R136). -/
def steppedSum (acc step : Int) (clamp limit : Nat) : Int :=
  if stepRejected acc step clamp limit then clippedSum acc step clamp limit else acc + step

/-- A good frame moves the state to LOCKED, restarts the watch and stops the lost count (R138,
R142). -/
def State.lockGuide (s : State) (left : GuideState) : State :=
  let t := (s.mapGuide (fun g =>
    { g with
      state := .locked
      watch := some { elapsed := 0, length := s.guideWatch * 1000000 }
      lost := none })).usedGuideFree
  if left = .locked then t else t.reportGuide left .frame

/-- A good frame's steps added to the accumulator (R136). -/
def State.addSteps (s : State) (g : GuideConfig) (azStep elStep : Int) : State :=
  s.mapGuide (fun c =>
    { c with
      accAz := steppedSum c.accAz azStep g.azClamp g.azLimit
      accEl := steppedSum c.accEl elStep g.elClamp g.elLimit })

/-- The lanes that reject a good frame's steps (R136). -/
def rejectingLanes (c : GuideContext) (g : GuideConfig) (azStep elStep : Int) : Lanes Bool :=
  ⟨stepRejected c.accAz azStep g.azClamp g.azLimit,
    stepRejected c.accEl elStep g.elClamp g.elLimit, false⟩

/-- A good frame of the active target handled (R136 to R138). -/
def State.goodGuide (s : State) (c : GuideContext) (g : GuideConfig) (f : GuideFields) : State :=
  let azStep := (g.azGain : Int) * f.azCorr
  let elStep := (g.elGain : Int) * f.elCorr
  let lanes := rejectingLanes c g azStep elStep
  if lanes.any = false then (s.addSteps g azStep elStep).lockGuide c.state
  else
    let t := s.flagCondition .guideReject (laneSetByte lanes) 0
    if marks s.cond.mask .guideReject then (t.addSteps g azStep elStep).lockGuide c.state
    else
      (if c.state = .lost then t else t.loseGuide c.state .reject).endActive .faulted
        (.condition .guideReject)

/-- A GUIDE frame addressed to the part (R135). -/
def State.takeGuide (s : State) (src : Byte) (payload : List Byte) : State :=
  match guideOf payload, s.seq.active with
  | some f, some a =>
    match s.acceptsGuide a src f with
    | none => s
    | some g =>
      let t := s.mapGuide (fun c => { c with lastSeq := some f.sequence })
      if g.qualityMin ≤ f.quality then t.goodGuide a.ctx.guide g f else t
  | _, _ => s

/-! ## The guide timers (R138, R142) -/

/-- A count has reached its length. -/
def Count.reached (c : Count) : Bool := decide (c.length ≤ c.elapsed)

/-- The guide watch is due (R138). -/
def State.guideWatchDue (s : State) : Bool :=
  match s.seq.active with
  | none => false
  | some a =>
    s.guideRuns && (decide (a.ctx.guide.state = .acquiring) || decide (a.ctx.guide.state = .locked))
      && a.ctx.guide.watch.any (·.reached)

/-- Guide watch expiry (R138). -/
def State.expireGuideWatch (s : State) : State :=
  match s.seq.active with
  | none => s
  | some a =>
    s.loseGuide a.ctx.guide.state
      (if a.ctx.guide.state = .acquiring then .acquireTimeout else .watch)

def execGuideWatchExpiry (s : State) : Host.Outcome State Fault Refusal :=
  .next (if s.guideWatchDue then s.expireGuideWatch else s)

/-- The lost count is due (R142). -/
def State.guideLostDue (s : State) : Bool :=
  match s.seq.active with
  | none => false
  | some a =>
    s.guideRuns && decide (a.ctx.guide.state = .lost) && a.ctx.guide.lost.any (·.reached)

def execGuideLost (s : State) : Host.Outcome State Fault Refusal :=
  .next (if s.guideLostDue then s.endActive .faulted .guideLost else s)

end Sys2Proof.Machine
end

