-- ==== Sys2Proof/Machine/Servo.lean ====
section
/-! DEFINITION. The Servo Path (chapter 6): one SAMPLE from its arrival to the telemetry copy, in the
steps of R118. A step that can end the target answers with the state and whether a fault was taken. -/

namespace Sys2Proof.Machine

/-! ## Angles and counts (R116, R120, R122) -/

/-- An axis's sign (R81). -/
def AxisRecord.sign (a : AxisRecord) : Int := if a.negative then -1 else 1

/-- The measured angle in whole mas (R116). -/
def measuredAngle (a : AxisRecord) (counts : Int) : Int :=
  roundDiv (a.sign * (counts - a.zero) * Config.turn) a.countsPerTurn

/-- `n / d` rounded to a whole count by a rounding mode (R120). -/
def roundCount (mode : Rounding) (n : Int) (d : Nat) : Int :=
  match mode with
  | .floor => n / d
  | .ceiling => ceilDiv n d
  | .towardZero => if 0 ≤ n then n / d else -(-n / d)
  | .nearestEven =>
    let q := n / d
    let r := n - q * d
    if 2 * r < d then q
    else if (d : Int) < 2 * r then q + 1
    else if q % 2 = 0 then q else q + 1

/-- The drive count of an angle of 1/256 mas (R120). -/
def countOf (a : AxisRecord) (angle : Int) : Int :=
  roundCount a.rounding (a.zero * turnUnits + a.sign * angle * a.countsPerTurn) turnUnits

/-- The velocity feedforward in counts per second (R122). -/
def velocityCounts (a : AxisRecord) (vel : Int) : Int :=
  clampInt (-2147483647) 2147483647
    (roundCount a.rounding (a.sign * vel * a.countsPerTurn) turnUnits)

/-! ## Steps 1 and 2: the record and the drive checks (R116, R117, R128) -/

/-- Step 1: the latest-sample record written and the encoder watch restarted where it runs (R116,
R128). -/
def State.recordSample (s : State) (x : Lane) (f : SampleFields) : State :=
  let now := s.time.mount
  let seen := decide (s.seq.motion = .alarm) ||
    (s.servo.latest.get x).any (·.seenSinceAlarm)
  { s with
    servo.latest := s.servo.latest.set x (some
      { arrival := now, sampleTime := now - f.age, counts := f.counts, fault := f.fault
        limitSwitch := f.limitSwitch, braked := f.braked
        measured := s.planner.axes.map (fun a => measuredAngle (a.get x) f.counts)
        commanded := none, error := none, holdMark := false, seenSinceAlarm := seen })
    servo.watch := s.servo.watch.set x ((s.servo.watch.get x).map (fun _ =>
      { restart := now, interval := (s.axis x).watch })) }

/-- The sample's measured angle lies outside the hard limits, with both tables loaded (R117). -/
def State.beyondHard (s : State) (x : Lane) (f : SampleFields) : Bool :=
  match s.planner.axes, s.planner.limits with
  | some a, some l =>
    decide (measuredAngle (a.get x) f.counts < (l.get x).hardMin) ||
      decide ((l.get x).hardMax < measuredAngle (a.get x) f.counts)
  | _, _ => false

/-- Step 2: DRIVE_FAULT, then at most one HARD_LIMIT (R117). -/
def State.checkDrive (s : State) (x : Lane) (f : SampleFields) : State :=
  let t := if f.fault then s.raiseAlarm .driveFault (some x) else s
  if f.limitSwitch || s.beyondHard x f then t.raiseAlarm .hardLimit (some x) else t

/-! ## Steps 3 to 5: the running target (R39 to R44, R112, R150) -/

/-- Step 3: the sample evaluation, at which a pending fault is taken (R150). -/
def State.evaluateSample (s : State) : State × Bool :=
  match s.seq.active with
  | none => (s, false)
  | some a =>
    match pendingFault a.ctx.flags s.cond.mask with
    | none => (s, false)
    | some c => (s.endActive .faulted (.condition c), true)

/-- A value moved toward a goal by at most `most`. -/
def approach (value goal : Int) (most : Nat) : Int :=
  value + clampInt (-most) most (goal - value)

/-- The blend rate of a lane: toward the effective offset, or 0 on it (R112). -/
def blendToward (applied effective : Int) (rate : Nat) : Int :=
  if applied < effective then rate else if effective < applied then -rate else 0

/-- Step 4: the applied offset of a lane advanced at the sample's mount time (R112, log 29). -/
def Context.advance (c : Context) (x : Lane) (rate now : Nat) : Context :=
  let goal := unitsOf (c.stack.effective x)
  let applied := approach (c.applied.get x) goal
    (256 * rate * (now - c.blendTime.get x) / 1000000)
  { c with
    applied := c.applied.set x applied
    blendTime := c.blendTime.set x now
    blendRate := c.blendRate.set x (blendToward applied goal rate) }

/-- An occurrence of a condition on an axis, and whether it was taken as a fault (R148). -/
def State.occur (s : State) (c : Condition) (x : Lane) : State × Bool :=
  (s.raiseCondition c (axisByte (some x)) 0, !marks s.cond.mask c)

/-- What a lane's evaluation holds it at: a position, or none where it found a value (R44). -/
def State.holdLane (s : State) (x : Lane) (p : Option Int) : State :=
  { s with servo.causes.heldAt := s.servo.causes.heldAt.set x p }

/-- The value of a running target's chain at the evaluation time in the composing states: an underrun,
which holds the lane at end_position where it is masked, or the end of the hold, with its cause cleared
where the chain covers that time again (R43, R44). -/
def State.evaluateChain (s : State) (x : Lane) (c : Chain) (t : Nat) : State × Bool :=
  match c.valueAt t with
  | none =>
    let p := s.occur .underrun x
    if p.2 then p
    else ((p.1.addCause .underrunHold x).holdLane x (some (c.crossRead t).pos), false)
  | some _ =>
    let s := s.holdLane x none
    (if c.covers t then s.removeCause .underrunHold x else s, false)

/-- The refill test: REFILL_WANTED once, when the end is nearer than the horizon (R41). -/
def State.refillTest (s : State) (id : Nat) (x : Lane) : State :=
  match findChain s.chains id x with
  | none => s
  | some c =>
    if c.closed = false ∧ c.refillArmed = true ∧
        c.ending.any (fun e => decide (e.time < s.time.mount + s.horizon)) = true then
      State.report
        { s with chains := mapChain s.chains id x (fun c => { c with refillArmed := false }) }
        (.refillWanted x ((c.ending.map (·.time)).getD 0)) id
    else s

/-- Step 5: the evaluation of the lane's chain: retirement, value, refill (R39). -/
def State.evaluateLane (s : State) (x : Lane) (t : Nat) : State × Bool :=
  match s.seq.active with
  | none => (s, false)
  | some a =>
    let id := a.record.targetId
    match findChain s.chains id x with
    | none => (s, false)
    | some c =>
      let s := { s with chains := mapChain s.chains id x (fun c => c.retire t) }
      let p := if s.seq.motion.composing then s.evaluateChain x (c.retire t) t else (s, false)
      if p.2 then p else (p.1.refillTest id x, false)

/-- Steps 3 to 5, taken in the running states; a fault ends them (R118). -/
def State.runningSteps (s : State) (x : Lane) (t : Nat) : State × Bool :=
  if s.seq.motion.running then
    let p := s.evaluateSample
    if p.2 then p
    else
      (p.1.mapContext (fun c => c.advance x (s.axis x).offsetRate s.time.mount)).evaluateLane x t
  else (s, false)

/-! ## Steps 6 to 9: command, conversion and SETPOINT (R119 to R122) -/

/-- The commanded motion of an axis at a mount time, from the source that the motion state names,
before any clamp of step 7 (R119). -/
def State.commandedAt (s : State) (x : Lane) (t : Nat) : Option Motion :=
  match s.seq.motion with
  | .parked | .alarm => none
  | .idle => some { pos := s.seq.hold.get x, vel := 0 }
  | .slewing | .stopping | .parking => some (s.planValue x t)
  | .settling | .tracking | .degraded => s.seq.active.map (fun a => s.composition a x t)

/-- What a SETPOINT carries (R122). -/
structure Setpoint where
  position : Int
  velocity : Int
  hold : Bool
  deriving DecidableEq, Repr

/-- A converted count lies in the drive count range (R121). -/
def countInRange (a : AxisRecord) (angle : Int) : Bool :=
  decide (a.countMin ≤ countOf a angle) && decide (countOf a angle ≤ a.countMax)

/-- The angle lies outside the hard limits of a loaded table (R121, the guard). -/
def State.guarded (s : State) (x : Lane) (angle : Int) : Bool :=
  match s.planner.limits with
  | none => false
  | some l =>
    decide (angle < unitsOf (l.get x).hardMin) || decide (unitsOf (l.get x).hardMax < angle)

/-- Step 8: the SETPOINT of a commanded motion, with the HOLD marker outside the count range and by
the hard-limit guard (R121, R122). -/
def State.convert (s : State) (x : Lane) (m : Motion) : Setpoint :=
  let a := s.axis x
  if countInRange a m.pos && !s.guarded x m.pos then
    { position := countOf a m.pos, velocity := velocityCounts a m.vel, hold := false }
  else
    { position := clampInt a.countMin a.countMax (countOf a m.pos), velocity := 0, hold := true }

/-- Steps 6 and 8 once a fault has been taken at this sample: no test of step 7 and no condition
(R118). -/
def State.commandAfterFault (s : State) (x : Lane) (t : Nat) : State × Option Setpoint :=
  (s, (s.commandedAt x t).map (s.convert x))

/-- Step 8 with its RANGE occurrence (R121). -/
def State.convertStep (s : State) (x : Lane) (t : Nat) (m : Motion) : State × Option Setpoint :=
  if s.seq.motion.running = false then (s, some (s.convert x m))
  else if countInRange (s.axis x) m.pos then
    (s.removeCause .rangeHold x, some (s.convert x m))
  else
    let p := s.occur .range x
    if p.2 then p.1.commandAfterFault x t
    else (p.1.addCause .rangeHold x, some (s.convert x m))

/-- The composed angle lies outside the soft limits (R93). -/
def State.outsideSoft (s : State) (x : Lane) (m : Motion) : Bool :=
  decide (m.pos < unitsOf (s.limit x).softMin) || decide (unitsOf (s.limit x).softMax < m.pos)

/-- The present commanded motions with one axis held to its soft limits: what goes on from a sample whose
unmasked LIMIT_APPROACH ended the target (R84, R93, log 37). -/
def State.clampedPresent (s : State) (x : Lane) : Lanes Motion :=
  s.present.set x (clampSoft (s.limit x) (s.present.get x))

/-- A LIMIT_APPROACH occurrence of an axis, and whether it was taken as a fault (R93, R148). -/
def State.occurLimit (s : State) (x : Lane) : State × Bool :=
  let t := s.flagCondition .limitApproach (axisByte (some x)) 0
  if marks s.cond.mask .limitApproach then (t, false)
  else (t.endActiveFrom (t.clampedPresent x) .faulted (.condition .limitApproach), true)

/-- Step 7 with its LIMIT_APPROACH occurrence, then step 8 (R93, R94). -/
def State.softStep (s : State) (x : Lane) (t : Nat) (m : Motion) : State × Option Setpoint :=
  if s.seq.motion.composing = false then s.convertStep x t m
  else if s.outsideSoft x m then
    let p := s.occurLimit x
    if p.2 then p.1.commandAfterFault x t
    else (p.1.addCause .limitClamp x).convertStep x t (clampSoft (s.limit x) m)
  else (s.removeCause .limitClamp x).convertStep x t m

/-- Steps 6 to 8 (R118). -/
def State.commandStep (s : State) (x : Lane) (t : Nat) (faulted : Bool) :
    State × Option Setpoint :=
  if faulted then s.commandAfterFault x t
  else
    match s.commandedAt x t with
    | none => (s, none)
    | some m => s.softStep x t m

/-- The SETPOINT frame (R122, section 10.3.3). -/
def setpointFrame (node tag : Byte) (p : Setpoint) : Frame :=
  { dest := node, src := 0x01, kind := 0x20, tag
    payload := intBytes 4 p.position ++ intBytes 4 p.velocity ++ [flagByte p.hold] }

/-- Step 9: the SETPOINT placed in the waiting slot, replacing one that waits (R130). -/
def State.placeSetpoint (s : State) (x : Lane) (tag : Byte) (p : Option Setpoint) : State :=
  match p with
  | none => s
  | some sp =>
    s.mapPort x (fun port => { port with setpoint := some (setpointFrame (s.axis x).node tag sp) })

/-! ## Step 10: following error and its tests (R123 to R126) -/

/-- The commanded angle at sample_time: as step 6, clamped to the soft limits in the composing states
(R123). -/
def State.commandedThen (s : State) (x : Lane) (t : Nat) : Option Int :=
  (s.commandedAt x t).map (fun m =>
    if s.seq.motion.composing then (clampSoft (s.limit x) m).pos else m.pos)

/-- The latest-sample record of an axis changed. -/
def State.mapLatest (s : State) (x : Lane) (f : LatestSample → LatestSample) : State :=
  { s with servo.latest := s.servo.latest.set x ((s.servo.latest.get x).map f) }

/-- The following error of a sample, where it is measured (R123). -/
def followingError (commanded : Option Int) (measured : Option Int) : Option Int :=
  match commanded, measured with
  | some c, some m => some (c - unitsOf m)
  | _, _ => none

/-- The error's whole-mas magnitude raises the active record's max_error (R3, R123). -/
def State.raiseMaxError (s : State) (x : Lane) (err : Int) : State :=
  s.mapStats (fun st =>
    { st with maxError := st.maxError.set x (max (st.maxError.get x) (wholeMas err).natAbs) })

/-- The settle test of a sample (R56, R124). -/
def State.settleTest (s : State) (x : Lane) (err : Int) (braked : Bool) : State :=
  match s.servo.settle with
  | none => s
  | some m =>
    if 256 * (s.axis x).settleTol < err.natAbs ∨ braked = true then
      { s with servo.settle := some { beginTime := s.time.mount, seen := .const false } }
    else
      let seen := m.seen.set x true
      let t := { s with servo.settle := some { m with seen } }
      if seen.all = true ∧ m.beginTime + s.planner.globals.settleTime * 1000 ≤ s.time.mount then
        t.enter (if s.servo.causes.isEmpty then .tracking else .degraded)
      else t

/-- The track test of a sample in TRACKING (R125). -/
def State.trackTest (s : State) (x : Lane) (err : Int) : State :=
  if 256 * (s.axis x).trackTol < err.natAbs then
    let p := s.occur .trackError x
    if p.2 then p.1
    else
      { p.1.addCause .trackError x with
        servo.recover := some { beginTime := s.time.mount, seen := .const false } }
  else s

/-- The recover test of a sample while TRACK_ERROR is in the set (R60, R125). -/
def State.recoverTest (s : State) (x : Lane) (err : Int) (braked : Bool) : State :=
  match s.servo.recover with
  | none => s
  | some m =>
    let above := decide (256 * (s.axis x).trackTol < err.natAbs)
    if above || braked then
      let t := { s with
        servo.recover := some { beginTime := s.time.mount, seen := .const false } }
      if above then t.addCause .trackError x else t
    else
      let seen := m.seen.set x true
      if seen.all = true ∧ m.beginTime + s.planner.globals.recoverTime * 1000 ≤ s.time.mount then
        State.lowerCause { s with servo.recover := none } .trackError (.const false)
      else { s with servo.recover := some { m with seen } }

/-- An axis stands at its park angle by its latest-sample record (R126). -/
def State.atPark (s : State) (x : Lane) : Bool :=
  match s.servo.latest.get x with
  | none => false
  | some l =>
    !l.braked && l.measured.any (fun m =>
      decide ((m - (s.axis x).parkAngle).natAbs ≤ (s.axis x).settleTol))

/-- The park completion test of a sample in PARKING, once the park slew has ended (R71, R126). -/
def State.parkTest (s : State) : State :=
  match s.planner.current with
  | .park p =>
    if p.arrival ≤ s.time.mount ∧ allLanes.all s.atPark = true then s.enterParked else s
  | .none | .slew _ | .stop _ => s

/-- The tests of step 10, by the motion state as step 10 begins: that an earlier step of the same sample
counts is the model's choice (R124, R125; log 34). -/
def State.errorTests (s : State) (x : Lane) (err : Int) (braked : Bool) : State :=
  match s.seq.motion with
  | .settling => (s.raiseMaxError x err).settleTest x err braked
  | .tracking => (s.raiseMaxError x err).trackTest x err
  | .degraded =>
    let t := s.raiseMaxError x err
    if t.servo.causes.has .trackError then t.recoverTest x err braked else t
  | .parking => s.parkTest
  | .parked | .idle | .slewing | .stopping | .alarm => s

/-- Step 10: the error written into the latest-sample record, and the tests (R116, R123). -/
def State.errorStep (s : State) (x : Lane) (f : SampleFields) (hold : Bool) : State :=
  if s.seq.motion = .parked ∨ s.seq.motion = .alarm ∨ s.planner.axes.isNone = true then s
  else
    let commanded := s.commandedThen x (s.time.mount - f.age)
    let error := followingError commanded ((s.servo.latest.get x).bind (·.measured))
    let t := s.mapLatest x (fun l => { l with commanded, error, holdMark := hold })
    match error with
    | none => t
    | some e => t.errorTests x e f.braked

/-! ## Step 11: telemetry (R127) -/

/-- The telemetry entry of an axis's latest sample (R127). The sample that completes the park was taken in
PARKING, and keeps its commanded angle and error beside the state PARKED, which is the model's choice (log
43). -/
def State.telemetryEntry (s : State) (x : Lane) (l : LatestSample) : TelemetryEntry :=
  { axis := x, sampleTime := l.sampleTime, commanded := l.commanded.map wholeMas
    measured := l.measured, error := l.error.map wholeMas, state := s.seq.motion
    targetId := s.activeId, fault := l.fault, limitSwitch := l.limitSwitch, braked := l.braked
    holdMark := l.holdMark }

/-- The telemetry buffer with an entry added; of 4 the oldest is overwritten (R127). -/
def pushTelemetry (l : List TelemetryEntry) (e : TelemetryEntry) : List TelemetryEntry :=
  (if Config.telemetrySize ≤ l.length then l.drop 1 else l) ++ [e]

/-- A copy made, where a telemetry destination is set (R127). -/
def State.copyTelemetry (s : State) (x : Lane) : State :=
  match s.site.telemetryDest, s.servo.latest.get x with
  | some _, some l =>
    { s with site.telemetry := pushTelemetry s.site.telemetry (s.telemetryEntry x l) }
  | _, _ => s

/-- Step 11: the telemetry count, and the copy when it reaches the decimation (R127). -/
def State.telemetryStep (s : State) (x : Lane) : State :=
  let n := (s.axis x).decimation
  let count := s.servo.telemetryCount.get x + 1
  if n = 0 then s
  else if count < n then { s with servo.telemetryCount := s.servo.telemetryCount.set x count }
  else State.copyTelemetry { s with servo.telemetryCount := s.servo.telemetryCount.set x 0 } x

/-! ## The whole sample (R118) -/

/-- Steps 3 to 9 of a sample: the state, and whether its SETPOINT carried the HOLD marker. -/
def State.driveSteps (s : State) (x : Lane) (tag : Byte) : State × Bool :=
  let t := s.time.mount + (s.axis x).lead
  let p := s.runningSteps x t
  let q := p.1.commandStep x t p.2
  (q.1.placeSetpoint x tag q.2, q.2.any (·.hold))

/-- An accepted SAMPLE taken (R118). -/
def State.takeSample (s : State) (x : Lane) (tag : Byte) (f : SampleFields) : State :=
  let s := (s.recordSample x f).checkDrive x f
  let p := s.driveSteps x tag
  (p.1.errorStep x f p.2).telemetryStep x

end Sys2Proof.Machine
end

