-- ==== Sys2Proof/Machine/Links.lean ====
section
/-! DEFINITION. The links (chapter 10 and R129 to R131): frames received and sorted, link errors,
forwarding and service replies, and the transmitters with their arbiters. -/

namespace Sys2Proof.Machine

/-! ## Receivers (R169) -/

/-- A link-error count raised; at 65,535 it stays (R169). -/
def raiseCount (n : Nat) : Nat := if Config.linkErrorMax ≤ n then n else n + 1

/-- A port's receiver. -/
def State.receiver (s : State) (p : Port) : RxState :=
  match p with
  | .site => s.site.rx
  | .axis x => (s.ports.get x).rx

/-- A port's receiver put into a state. -/
def State.setReceiver (s : State) (p : Port) (r : RxState) : State :=
  match p with
  | .site => { s with site.rx := r }
  | .axis x => s.mapPort x (fun port => { port with rx := r })

/-- A port's link-error count raised (R169). -/
def State.countError (s : State) (p : Port) : State :=
  match p with
  | .site => { s with site.linkErrors := raiseCount s.site.linkErrors }
  | .axis x => s.mapPort x (fun port => { port with linkErrors := raiseCount port.linkErrors })

/-- A receiver in FRAME that has collected some bytes: it waits for the six header bytes, discards a
length field above 240, waits for the payload and the two CRC bytes, and then compares the CRC (R169). -/
def rxCollected (bytes : List Byte) : RxState × Option RxEvent :=
  if bytes.length < 6 then (.frame bytes 0, none)
  else if Config.payloadSize < natAt bytes 4 2 then (.waitIdle 0, some (.discarded .oversize))
  else if bytes.length < natAt bytes 4 2 + 8 then (.frame bytes 0, none)
  else
    match frameOfWire (0xA5 :: bytes) with
    | some f => (.hunt, some (.received f))
    | none => (.hunt, some (.discarded .crc))

/-- A receiver takes a byte, which ends the line's idle time: HUNT waits for a start byte, FRAME collects,
WAIT_IDLE ignores (R169). -/
def rxByte (r : RxState) (b : Byte) : RxState × Option RxEvent :=
  match r with
  | .hunt => (if b = 0xA5 then .frame [] 0 else .hunt, none)
  | .frame bytes _ => rxCollected (bytes ++ [b])
  | .waitIdle _ => (.waitIdle 0, none)

/-- A receiver sees its line idle for `n` more byte times. When they come to 2 since the last byte, a frame
in reception is truncated and WAIT_IDLE returns to HUNT (R169). -/
def rxIdle (r : RxState) (n : Nat) : RxState × Option RxEvent :=
  match r with
  | .hunt => (.hunt, none)
  | .frame bytes idle =>
    if 2 ≤ idle + n then (.hunt, some (.discarded .truncation))
    else (.frame bytes (idle + n), none)
  | .waitIdle idle => (if 2 ≤ idle + n then .hunt else .waitIdle (idle + n), none)

/-- A receiver takes what its line brings next (R169). -/
def rxNext (r : RxState) (i : LineInput) : RxState × Option RxEvent :=
  match i with
  | .char c => rxByte r (charByte c)
  | .quiet n => rxIdle r n

/-- A receiver takes what its line brings, one after another, and hands on what it finds. -/
def rxRun : RxState → List LineInput → RxState × List RxEvent
  | r, [] => (r, [])
  | r, i :: rest =>
    let p := rxNext r i
    let q := rxRun p.1 rest
    (q.1, p.2.toList ++ q.2)

/-! ## Requests (R75, R77, R170, R172) -/

/-- The supervision restart and the lapse recovery of a valid REQUEST (R75, R77). -/
def State.hearRequest (s : State) : State :=
  { s with
    seq.parkPending := s.seq.parkPending && !(s.seq.sup.lapsed && decide (s.seq.motion ≠ .parking))
    seq.sup := { s.seq.sup with
      timer := if s.seq.sup.on then some s.time.mount else s.seq.sup.timer
      lapsed := false
      graceCount := if s.seq.sup.lapsed then none else s.seq.sup.graceCount } }

/-- A REQUEST joins the request buffer, or is dropped (R172). -/
def State.bufferRequest (s : State) (f : Frame) : State :=
  if s.site.requests.length < Config.requestSize then
    { s with site.requests := s.site.requests ++
        [{ src := f.src, dest := f.dest, tag := f.tag, payload := f.payload }] }
  else { s with site.requestDropped := true }

/-! ## Forwarding (R176 to R179) -/

/-- A FORWARD_REFUSED report (R179). -/
def State.refuseForward (s : State) (toSite : Bool) (x : Lane) (f : Frame) (station : Byte)
    (why : RefusedReason) : State :=
  s.report (.forwardRefused toSite x f.kind f.tag station why) s.activeId

/-- The first entry that matches a proxy and kind (R176). -/
def State.forwardMatch (s : State) (x : Lane) (kind : Byte) : Option ForwardEntry :=
  s.site.forwarding.find? (fun e =>
    decide (e.proxy = x) && decide (e.low ≤ kind.toNat) && decide (kind.toNat ≤ e.high))

/-- A frame placed in an axis's service queue, and its source recorded as last requester (R177). -/
def State.forward (s : State) (x : Lane) (f : Frame) : State :=
  s.mapPort x (fun port =>
    { port with
      service := port.service ++ [{ f with dest := (s.axis x).node, src := 0x01 }]
      requester := some f.src })

/-- A frame addressed to a drive proxy (R177). -/
def State.proxyFrame (s : State) (x : Lane) (f : Frame) : State :=
  if 0x20 ≤ f.kind.toNat ∧ f.kind.toNat ≤ 0x27 then s.refuseForward false x f f.src .motionKind
  else if f.kind.toNat < 0x20 ∨ 0x2F < f.kind.toNat then s
  else
    match s.forwardMatch x f.kind with
    | none => s
    | some e =>
      if e.action = .drop then s
      else if e.action = .forwardQuiet ∧ s.seq.motion.resting = false then
        s.refuseForward false x f f.src .busy
      else if Config.serviceSize ≤ (s.ports.get x).service.length then
        s.refuseForward false x f f.src .full
      else s.forward x f

/-- A service reply from an axis's drive (R178). -/
def State.replyFrame (s : State) (x : Lane) (f : Frame) : State :=
  match (s.ports.get x).requester with
  | none => s
  | some station =>
    if s.site.returns.any (fun r => decide (r.axis = x)) then
      s.refuseForward true x f station .full
    else
      { s with site.returns := s.site.returns ++
          [{ axis := x, frame := { f with dest := station, src := proxyOf x } }] }

/-! ## Sorting (R115, R169, R170) -/

/-- A frame received on the site port, sorted by its destination and kind (R170). -/
def State.sortSite (s : State) (f : Frame) : State :=
  if f.dest = s.site.address ∨ f.dest = 0xFF then
    if f.kind = 0x10 then s.hearRequest.bufferRequest f
    else if f.kind = 0x18 ∧ f.dest = s.site.address then s.takeGuide f.src f.payload
    else s
  else
    match proxyAxis f.dest with
    | some x => s.proxyFrame x f
    | none => s

/-- A frame received on an axis port (R115, R178). -/
def State.sortAxis (s : State) (x : Lane) (f : Frame) : State :=
  if f.dest = 0x01 ∧ f.src = (s.axis x).node then
    if f.kind = 0x21 then
      match sampleOf f.payload with
      | some fields => s.takeSample x f.tag fields
      | none => s
    else if 0x28 ≤ f.kind.toNat ∧ f.kind.toNat ≤ 0x2F then s.replyFrame x f
    else s
  else s

/-- A frame received at a port, handed on by what it is (R115, R170). -/
def State.sortFrame (s : State) (p : Port) (f : Frame) : State :=
  match p with
  | .site => s.sortSite f
  | .axis x => s.sortAxis x f

/-- What a receiver hands on is taken: a received frame is sorted, a discarded one is counted (R169). -/
def State.takeRx (p : Port) (s : State) : RxEvent → State
  | .received f => s.sortFrame p f
  | .discarded _ => s.countError p

/-- A port's line brings some characters and idle stretches: the receiver moves on, and what it hands on
is taken in order (R168, R169). -/
def State.receiveLine (s : State) (p : Port) (input : List LineInput) : State :=
  let r := rxRun (s.receiver p) input
  r.2.foldl (State.takeRx p) (s.setReceiver p r.1)

def execRequestFrameReception (f : Frame) (s : State) : Host.Outcome State Fault Refusal :=
  .next (s.receiveLine .site (frameLine f))

def execGuideFrame (f : Frame) (s : State) : Host.Outcome State Fault Refusal :=
  .next (s.receiveLine .site (frameLine f))

def execProxyServiceFrame (f : Frame) (s : State) : Host.Outcome State Fault Refusal :=
  .next (s.receiveLine .site (frameLine f))

def execSample (x : Lane) (f : Frame) (s : State) : Host.Outcome State Fault Refusal :=
  .next (s.receiveLine (.axis x) (frameLine f))

def execServiceReply (x : Lane) (f : Frame) (s : State) : Host.Outcome State Fault Refusal :=
  .next (s.receiveLine (.axis x) (frameLine f))

/-- What the line brings where a frame is discarded in reception; the receiver finds the error (R169,
log 24). -/
def execLinkError (p : Port) (input : List LineInput) (s : State) :
    Host.Outcome State Fault Refusal :=
  .next (s.receiveLine p input)

/-- A receiver in WAIT_IDLE (R169). -/
def RxState.waits : RxState → Bool
  | .waitIdle _ => true
  | .hunt | .frame _ _ => false

/-- The line has been idle for 2 byte times: WAIT_IDLE becomes HUNT (R169); in another state the event is not
due (log 2). -/
def execWaitIdleReturnToHunt (p : Port) (s : State) : Host.Outcome State Fault Refusal :=
  .next (if (s.receiver p).waits then s.receiveLine p [.quiet 2] else s)

/-! ## Transmitters (R129, R168, R175) -/

/-- The line is free: nothing in flight, and the gap has passed (R129). -/
def Transmitter.free (t : Transmitter) : Bool := t.inFlight.isNone && decide (t.gap = 0)

/-- What a transmitter puts on its line in the present byte time: the character of the byte that is being
sent, or an idle line (R168). -/
def Transmitter.line (t : Transmitter) : LineChar :=
  match t.inFlight.bind (fun f => f.wire[f.pos]?) with
  | some b => lineChar b
  | none => idleChar

/-- A frame starts: its start byte goes on the line. -/
def startFrame (f : Frame) : Transmitter :=
  { inFlight := some { frame := f, wire := frameWire f, pos := 0, cut := false }, gap := 0 }

/-- An axis port's arbiter: the control slot, then the setpoint slot, then the service queue's head
(R129). -/
def AxisPort.start (p : AxisPort) : AxisPort :=
  match p.control, p.setpoint, p.service with
  | some f, _, _ => { p with tx := startFrame f, control := none }
  | none, some f, _ => { p with tx := startFrame f, setpoint := none }
  | none, none, f :: rest => { p with tx := startFrame f, service := rest }
  | none, none, [] => p

def execAxisTransmitStart (x : Lane) (s : State) : Host.Outcome State Fault Refusal :=
  .next (if (s.ports.get x).tx.free then s.mapPort x AxisPort.start else s)

/-- A RESPONSE frame (R173, section 10.3.5). -/
def responseFrame (address : Byte) (r : Response) : Frame :=
  { dest := r.dest, src := address, kind := 0x11, tag := r.tag
    payload := [r.code, statusCode r.reply.status] ++ r.reply.result }

/-- A REPORT frame (R182, section 10.3.6). -/
def reportFrame (address dest : Byte) (r : Report) : Frame :=
  { dest, src := address, kind := 0x12, tag := 0, payload := reportPayload r }

/-- A TELEMETRY frame (R127, section 10.3.7). -/
def telemetryFrame (address dest : Byte) (e : TelemetryEntry) : Frame :=
  { dest, src := address, kind := 0x13, tag := 0, payload := telemetryPayload e }

/-- The site port's arbiter: responses, reports, return slots, telemetry; without a telemetry
destination the telemetry buffer is emptied (R175). -/
def State.startSite (s : State) : State :=
  match s.site.responses, s.rep.queue, s.site.returns, s.site.telemetry with
  | r :: rest, _, _, _ =>
    { s with site.responses := rest, site.tx := startFrame (responseFrame s.site.address r) }
  | [], r :: rest, _, _ =>
    { s with
      rep.queue := rest, site.tx := startFrame (reportFrame s.site.address s.rep.dest r) }
  | [], [], r :: rest, _ => { s with site.returns := rest, site.tx := startFrame r.frame }
  | [], [], [], e :: rest =>
    match s.site.telemetryDest with
    | some dest =>
      { s with
        site.telemetry := rest, site.tx := startFrame (telemetryFrame s.site.address dest e) }
    | none => { s with site.telemetry := [] }
  | [], [], [], [] => s

def execSiteTransmitStart (s : State) : Host.Outcome State Fault Refusal :=
  .next (if s.site.tx.free then s.startSite else s)

/-- The last CRC byte of a frame in flight has left: the transmitter is idle, and the line is free 2
byte times later (R129, R168, log 23). -/
def Transmitter.finish (t : Transmitter) : Transmitter :=
  if t.inFlight.isSome then { inFlight := none, gap := 2 } else t

def execFrameTransmissionEnd (p : Port) (s : State) : Host.Outcome State Fault Refusal :=
  .next
    (match p with
     | .site => { s with site.tx := s.site.tx.finish }
     | .axis x => s.mapPort x (fun port => { port with tx := port.tx.finish }))

end Sys2Proof.Machine
end

