-- ==== Sys2Proof/Machine/Device.lean ====
section
/-! DEFINITION. The time requests, Read Status, Reset Controller and the unknown request (chapters 9
and 11), and the change of mount time that a taken Set Time and a done pulse load share. -/

namespace Sys2Proof.Machine

/-! ## A change of mount time (R159, R161, R166) -/

/-- Mount time set to a value, with what passes by a forward or a backward step; TIME_VALID is true from
then on, and the windows that the new time has passed have their expiries handed over (R158, R159, R165,
R166). -/
def State.setClock (s : State) (value : Nat) : State :=
  let t := if s.time.mount ≤ value then s.passTime (value - s.time.mount) else s.turnBack value
  State.handExpiries { t with time.valid := true }

/-- What follows a change of mount time in the same event: the expiries handed over are taken in queue
order, and an IDLE state tests activation (R16, R51, R165; log 5). -/
def State.afterClock (s : State) : State := s.expireHanded.testActivation

/-- A step of mount time is held back: above 2,000 microseconds in a moving state (R159, R161). -/
def State.stepTooLarge (s : State) (step : Int) : Bool :=
  !s.seq.motion.resting && decide (Config.stepLimit < step.natAbs)

/-! ## Set Time and Set Time At Pulse (R159, R160) -/

/-- Set Time (R159). A step that does not fit 8 signed bytes is shown modulo 2^64, which is the model's
choice (log 30). -/
def setTimeBody (p : List Byte) (s : State) : State × Reply :=
  if p.length ≠ 8 then refuse s .badParam
  else
    let value := natAt p 0 8
    let step := (value : Int) - s.time.mount
    if s.stepTooLarge step then refuseWith s .timeStep (intBytes 8 step)
    else
      accept (State.afterClock { s.setClock value with time.load := none })
        (natBytes 8 value ++ intBytes 8 step ++ [flagByte s.time.load.isSome])

def execSetTime (s : State) : Host.Outcome State Fault Refusal :=
  .next (takeRequest .setTime setTimeBody s)

/-- Set Time At Pulse (R160). -/
def setTimeAtPulseBody (p : List Byte) (s : State) : State × Reply :=
  if p.length ≠ 8 then refuse s .badParam
  else accept { s with time.load := some (natAt p 0 8) } [flagByte s.time.load.isSome]

def execSetTimeAtPulse (s : State) : Host.Outcome State Fault Refusal :=
  .next (takeRequest .setTimeAtPulse setTimeAtPulseBody s)

/-! ## Read Time and Peek Time (R162) -/

/-- The result of a Read Time or Peek Time (R162). -/
def timeBytes (t : TimeBase) : List Byte :=
  natBytes 8 t.mount ++ [flagByte t.valid] ++ optNatBytes 8 t.pulseTime ++ [flagByte t.pulseNew] ++
    optNatBytes 8 t.load

/-- Read Time (R162). -/
def readTimeBody (p : List Byte) (s : State) : State × Reply :=
  if p ≠ [] then refuse s .badParam
  else accept { s with time.pulseNew := false } (timeBytes s.time)

def execReadTime (s : State) : Host.Outcome State Fault Refusal :=
  .next (takeRequest .readTime readTimeBody s)

/-- Peek Time (R162). -/
def peekTimeBody (p : List Byte) (s : State) : State × Reply :=
  if p ≠ [] then refuse s .badParam else accept s (timeBytes s.time)

def execPeekTime (s : State) : Host.Outcome State Fault Refusal :=
  .next (takeRequest .peekTime peekTimeBody s)

/-! ## Read Status (R186) -/

/-- The flags byte of Read Status (R186). -/
def State.statusFlags (s : State) : Byte :=
  BitVec.ofNat 8
    ((if s.time.valid then 1 else 0) + (if s.seq.sup.lapsed then 2 else 0) +
      (if s.seq.parkPending then 4 else 0) + (if s.corr.commitPending then 8 else 0) +
      (if s.site.requestDropped then 16 else 0) + (if s.rep.lost then 32 else 0) +
      (if s.seq.sup.on then 64 else 0) + (if s.seq.sup.locked then 128 else 0))

/-- The 28 bytes of Read Status (R186). -/
def State.statusBytes (s : State) : List Byte :=
  [motionCode s.seq.motion, modeCode s.seq.mode] ++ natBytes 1 s.seq.queue.length ++
    natBytes 2 s.activeId ++ natBytes 1 s.seq.shelf.length ++ natBytes 2 (freeSlots s.chains) ++
    [s.statusFlags] ++ natBytes 2 s.site.linkErrors ++ natBytes 2 s.ports.az.linkErrors ++
    natBytes 2 s.ports.el.linkErrors ++ natBytes 2 s.ports.rot.linkErrors ++
    natBytes 1 s.rep.queue.length ++ firstCauseBytes s.cond.first

/-- What Read Status clears: the four link-error counts, request_dropped and report_lost (R186). -/
def State.clearStatus (s : State) : State :=
  { s with
    site.linkErrors := 0
    site.requestDropped := false
    rep.lost := false
    ports := s.ports.map (fun p => { p with linkErrors := 0 }) }

/-- Read Status (R186). -/
def readStatusBody (p : List Byte) (s : State) : State × Reply :=
  if p ≠ [] then refuse s .badParam else accept s.clearStatus s.statusBytes

def execReadStatus (s : State) : Host.Outcome State Fault Refusal :=
  .next (takeRequest .readStatus readStatusBody s)

/-! ## Reset Controller (R187) -/

/-- The report queue after a soft reset (R183). -/
def ReportUnit.softReset (u : ReportUnit) : ReportUnit :=
  { u with
    queue := []
    lost := u.lost || !u.queue.isEmpty
    lossMarker := u.lossMarker || !u.queue.isEmpty }

/-- The Sequencer after a soft reset (R49, R66, R74, R187). -/
def Sequencer.softReset (q : Sequencer) (now : Nat) : Sequencer :=
  { q with
    queue := [], active := none, shelf := [], outcomes := [], mode := .hold, parkPending := false
    starved := false, startHanded := false, expiryHanded := [], spell := none
    sup := { q.sup with
      timer := if q.sup.on then some now else none, lapsed := false, graceCount := none } }

/-- The soft reset's effect on every block but the queue of commands (R187). -/
def State.softReset (s : State) : State :=
  { s with
    time.load := none
    seq := s.seq.softReset s.time.mount
    chains := []
    planner.current := .none
    corr.commitPending := false
    site.requests := []
    site.responses := []
    site.telemetry := []
    site.returns := []
    rep := s.rep.softReset
    ports := s.ports.map (fun p => { p with setpoint := none, service := [] }) }

/-- Reset Controller (R187): the reset empties the response queue of all but its own response. -/
def resetControllerBody (p : List Byte) (s : State) : State × Reply :=
  if p ≠ [] then refuse s .badParam
  else if s.seq.motion.resting = false then refuse s .wrongState
  else accept s.softReset [motionCode s.seq.motion]

def execResetController (s : State) : Host.Outcome State Fault Refusal :=
  .next (takeRequest .resetController resetControllerBody s)

/-! ## The unknown request (R173, R180) -/

/-- A request with no code, or with one that names no request. -/
def unknownRequestBody (_p : List Byte) (s : State) : State × Reply := refuse s .unknownRequest

def execUnknownRequest (s : State) : Host.Outcome State Fault Refusal :=
  .next (takeRequest .unknownRequest unknownRequestBody s)

end Sys2Proof.Machine
end

