-- ==== Sys2Proof/Machine/TimeEvents.lean ====
section
/-! DEFINITION. The events of time and of the discrete inputs: completions, expiries, lapses, the
PULSE, SHUTTER and PERMIT inputs and the pin reset. An event that is not due has no effect (log 2). -/

namespace Sys2Proof.Machine

/-! ## Completions (R55, R62, R71) -/

/-- Dwell remaining has reached 0 while it counts (R62). Where another event is taken first in that
microsecond and counting stops, dwell remaining stays at 0 and the completion falls when it counts again,
which is the model's choice (log 42). -/
def State.dwellDue (s : State) : Bool :=
  s.dwellCounts && s.seq.active.any (fun a => decide (a.ctx.dwellRemaining = 0))

def execDwellCompletion (s : State) : Host.Outcome State Fault Refusal :=
  .next (if s.dwellDue then s.endActive .completed .none else s)

/-- Mount time has reached the slew's arrival time (R55). -/
def State.slewDue (s : State) : Bool :=
  match s.seq.motion, s.planner.current with
  | .slewing, .slew p => decide (p.arrival ≤ s.time.mount)
  | _, _ => false

def execSlewCompletion (s : State) : Host.Outcome State Fault Refusal :=
  .next (if s.slewDue then State.enter { s with planner.current := .none } .settling else s)

/-- The stop profile that has ended (R71). -/
def State.stopEnded (s : State) : Option StopPlan :=
  match s.seq.motion, s.planner.current with
  | .stopping, .stop p => if p.endTime ≤ s.time.mount then some p else none
  | _, _ => none

/-- The end points of a stop profile (R91). -/
def StopPlan.endPoints (p : StopPlan) : Lanes Int := p.axes.map (·.restPos)

/-- Stop completion: the park slew where park pending is set, else IDLE at the end points (R71). -/
def State.completeStop (s : State) (p : StopPlan) : State :=
  if s.seq.parkPending then s.startPark (p.endPoints.map (fun a => { pos := a, vel := 0 }))
  else s.enterIdle p.endPoints

def execStopCompletion (s : State) : Host.Outcome State Fault Refusal :=
  .next
    (match s.stopEnded with
     | some p => s.completeStop p
     | none => s)

/-! ## Queue times (R15, R16, R51, R164, R165) -/

/-- A queued record's window-expiry event has been handed over and waits to be taken (R15, R165). -/
def State.windowDue (s : State) (id : Nat) : Bool :=
  s.seq.expiryHanded.contains id && s.seq.queue.any (fun r => decide (r.targetId = id))

/-- Window expiry: every record whose event is handed over leaves in queue order, and activation is
tested where that changed the head (R15, R16, log 5). -/
def execWindowExpiry (targetId : Nat) (s : State) : Host.Outcome State Fault Refusal :=
  .next (if s.windowDue targetId then s.expireHanded.retestIfHeadChanged s else s)

/-- The start-time-reached event that was handed over for the head is taken: the activation test runs. A
head whose start was reached before it became head has none, and nothing happens (R51, R164). -/
def State.takeStart (s : State) : State :=
  if s.seq.startHanded then State.testActivation { s with seq.startHanded := false } else s

def execStartTimeReached (s : State) : Host.Outcome State Fault Refusal := .next s.takeStart

/-! ## Watches and supervision (R75, R76, R128) -/

/-- An axis's encoder watch has expired (R128, R166). -/
def State.watchDue (s : State) (x : Lane) : Bool :=
  (s.servo.watch.get x).any (fun w => decide (w.restart + w.interval ≤ s.time.mount))

def execEncoderSilent (x : Lane) (s : State) : Host.Outcome State Fault Refusal :=
  .next (if s.watchDue x then s.raiseAlarm .encoderSilent (some x) else s)

/-- The supervision interval has passed without a restart (R75). -/
def State.lapseDue (s : State) : Bool :=
  s.seq.sup.on &&
    s.seq.sup.timer.any (fun t => decide (t + s.seq.sup.interval * 1000000 ≤ s.time.mount))

/-- The grace count has reached the grace while a target is active (R76). -/
def State.graceDue (s : State) : Bool :=
  s.seq.active.isSome &&
    s.seq.sup.graceCount.any (fun e => decide (s.seq.sup.grace * 1000000 ≤ e))

/-- Grace expiry: the active target leaves WITHDRAWN LAPSE (R76). -/
def State.expireGrace (s : State) : State := s.endActive .withdrawn .lapse

def execGraceExpiry (s : State) : Host.Outcome State Fault Refusal :=
  .next (if s.graceDue then s.expireGrace else s)

/-- What a lapse does in each motion state (R75); a grace of 0 expires at once (R76). -/
def State.lapseEffect (s : State) : State :=
  match s.seq.motion with
  | .slewing | .settling | .tracking | .degraded =>
    let t := { s with seq.parkPending := true, seq.sup.graceCount := some 0 }
    if t.graceDue then t.expireGrace else t
  | .idle => s.startPark s.present
  | .stopping => { s with seq.parkPending := true }
  | .parking | .parked | .alarm => s

/-- The lapse: the report, the flag, HOLD, the timer stopped, and its effect (R75). -/
def State.lapse (s : State) : State :=
  let t := s.report (.supervisionLapse s.seq.motion s.seq.sup.interval s.seq.sup.grace) s.activeId
  State.lapseEffect { t with
    seq.mode := .hold
    seq.sup := { t.seq.sup with lapsed := true, timer := none } }

def execSupervisionLapse (s : State) : Host.Outcome State Fault Refusal :=
  .next (if s.lapseDue then s.lapse else s)

/-! ## PULSE and SHUTTER (R4, R149, R161, R163) -/

/-- The capture of a PULSE edge (R161, step 1). -/
def State.capturePulse (s : State) : State :=
  { s with time.pulseTime := some s.time.mount, time.pulseNew := true }

/-- A pending pulse load done or refused at an edge, and reported at the captured time (R161, log
26). -/
def State.pulseLoad (s : State) (value : Nat) : State :=
  let now := s.time.mount
  let step := (value : Int) - now
  let s := { s with time.load := none }
  if s.stepTooLarge step then s.report (.pulseLoad true value now step) s.activeId
  else
    let t := s.setClock value
    State.afterClock
      { t with rep := offerReport t.rep (.pulseLoad false value now step) now t.activeId }

def execPulseEdge (s : State) : Host.Outcome State Fault Refusal :=
  .next
    (match s.time.load with
     | none => s.capturePulse
     | some value => s.capturePulse.pulseLoad value)

/-- The largest magnitude of following error over the axes whose latest record holds one, in whole
mas; 0 when none does (R4, R163). -/
def State.largestError (s : State) : Nat :=
  (allLanes.map (fun x =>
    (((s.servo.latest.get x).bind (·.error)).map (fun e => (wholeMas e).natAbs)).getD 0)).foldl
      max 0

/-- A capture handed to a record's list (R4). -/
def TargetRecord.addCapture (r : TargetRecord) (c : Capture) : TargetRecord :=
  if r.captures.length < Config.captureSize then { r with captures := r.captures ++ [c] }
  else { r with captureOverflow := true }

/-- The capture entry of an edge taken now for the active target (R4, R163). -/
def State.captureOf (s : State) (e : ShutterEdge) (a : Running) : Capture :=
  { edge := e, time := s.time.mount, state := s.seq.motion, maxError := s.largestError
    stackTop := a.ctx.stack.top }

/-- The edge captured into the active target's list (R163). -/
def State.captureEdge (s : State) (e : ShutterEdge) : State :=
  s.mapActive (fun a => { a with record := a.record.addCapture (s.captureOf e a) })

/-- An OPEN edge in SLEWING, SETTLING or DEGRADED is off target (R149). -/
def offTarget (e : ShutterEdge) (m : MotionState) : Bool :=
  decide (e = .opening) && (decide (m = .slewing) || decide (m = .settling) || decide (m = .degraded))

def execShutterEdge (e : ShutterEdge) (s : State) : Host.Outcome State Fault Refusal :=
  .next
    (match s.seq.active with
     | none => s.report (.shutterUnattached e s.seq.motion) 0
     | some _ =>
       let t := s.captureEdge e
       if offTarget e s.seq.motion then t.raiseCondition .shutterOffTarget 0xFF s.time.mount else t)

/-! ## PERMIT and RESET_N (R154, R158, R170) -/

def execPermitLost (s : State) : Host.Outcome State Fault Refusal :=
  .next (State.raiseAlarm { s with permit := false } .permitLost none)

def execPermitRise (s : State) : Host.Outcome State Fault Refusal :=
  .next { s with permit := true }

/-- The state at the end of a pin reset, before PERMIT is looked at: State.reset at the address the
straps give, with the commands that wait and the model's free-value counter kept (R170, log 4). -/
def State.pinReset (s : State) (straps : BitVec 3) (permit : Bool) : State :=
  { State.reset with
    site.address := 0x20 + straps.setWidth 8
    permit
    freeIndex := s.freeIndex
    pending := s.pending }

def execPinReset (straps : BitVec 3) (permit : Bool) (s : State) :
    Host.Outcome State Fault Refusal :=
  .next
    (if permit then s.pinReset straps permit
     else (s.pinReset straps permit).raiseAlarm .permitLost none)

end Sys2Proof.Machine
end

