-- ==== Sys2Proof/Machine/Clock.lean ====
section
/-! DEFINITION. What the part does by itself while no command waits (log 3): its own event that is due,
or one microsecond of mount time. -/

namespace Sys2Proof.Machine

/-- The last byte of a frame in flight has left, one byte time for each byte (R129, R168). -/
def Transmitter.ended (t : Transmitter) : Bool :=
  t.inFlight.any (fun f => decide (f.wire.length ≤ f.pos))

/-- An axis port holds a frame that waits for the line (R129). -/
def AxisPort.waiting (p : AxisPort) : Bool :=
  p.control.isSome || p.setpoint.isSome || !p.service.isEmpty

/-- The site port has something to send (R175). -/
def State.siteWaiting (s : State) : Bool :=
  !s.site.responses.isEmpty || !s.rep.queue.isEmpty || !s.site.returns.isEmpty ||
    !s.site.telemetry.isEmpty

/-- The request that the Request Processor can take now (R173). -/
def State.requestDue (s : State) : Option Instr :=
  match s.site.requests with
  | [] => none
  | r :: _ => if s.canTake r then some (requestOf r.payload) else none

/-- The window expiry handed over that is taken first (R165). -/
def State.expiryDue (s : State) : Option Instr :=
  (s.seq.queue.find? (fun r => s.seq.expiryHanded.contains r.targetId)).map
    (fun r => .windowExpiry r.targetId)

/-- A command where it is due. -/
def dueIf (due : Bool) (c : Instr) : Option Instr := if due then some c else none

/-- The part's own events in the order in which the model takes those that are due together (log 3). -/
def State.dueEvents (s : State) : List (Option Instr) :=
  [dueIf s.site.tx.ended (.frameTransmissionEnd .site)] ++
    allLanes.map (fun x => dueIf (s.ports.get x).tx.ended (.frameTransmissionEnd (.axis x))) ++
    [dueIf (s.site.tx.free && s.siteWaiting) .siteTransmitStart] ++
    allLanes.map (fun x =>
      dueIf ((s.ports.get x).tx.free && (s.ports.get x).waiting) (.axisTransmitStart x)) ++
    allLanes.map (fun x => dueIf (s.watchDue x) (.encoderSilent x)) ++
    [dueIf s.guideWatchDue .guideWatchExpiry, dueIf s.guideLostDue .guideLost,
      dueIf s.dwellDue .dwellCompletion, dueIf s.slewDue .slewCompletion,
      dueIf s.stopEnded.isSome .stopCompletion, s.expiryDue,
      dueIf s.seq.startHanded .startTimeReached, dueIf s.lapseDue .supervisionLapse,
      dueIf s.graceDue .graceExpiry, s.requestDue]

/-- The part's own event to take next, if any is due. -/
def State.nextDue (s : State) : Option Instr := s.dueEvents.findSome? id

/-- One byte time on a transmitter (R168). -/
def Transmitter.tick (t : Transmitter) : Transmitter :=
  { inFlight := t.inFlight.map (fun f => { f with pos := f.pos + 1 }), gap := t.gap - 1 }

/-- A link-error count after one byte time of idle line at its receiver: a truncated frame is counted
(R169). -/
def tickErrors (r : RxState) (n : Nat) : Nat := if (rxIdle r 1).2.isSome then raiseCount n else n

/-- One byte time on an axis port: its transmitter goes on, and its receiver's line is idle (R168, R169). -/
def AxisPort.tick (p : AxisPort) : AxisPort :=
  { p with tx := p.tx.tick, rx := (rxIdle p.rx 1).1, linkErrors := tickErrors p.rx p.linkErrors }

/-- One microsecond passes: mount time and what counts with it, with the expiries of the windows that it
passes handed over, unless mount time stands at 2^64 - 1, and one byte time on every link. No command brings a character in it, so every receiver's line is idle
for that byte time (R158, R165, R168, R169; log 3). -/
def State.tick (s : State) : State :=
  let t := if s.time.mount < Config.mountTimeMax then (s.passTime 1).handExpiries else s
  { t with
    site.tx := s.site.tx.tick
    site.rx := (rxIdle s.site.rx 1).1
    site.linkErrors := tickErrors s.site.rx s.site.linkErrors
    ports := s.ports.map AxisPort.tick }

end Sys2Proof.Machine
end

