-- ==== Sys2Proof/Machine/Queue.lean ====
section
/-! DEFINITION. The queue requests (chapter 1, R49, R63): admission, withdrawal, the queue mode,
reading records and Adjust Dwell. Each `...Body` is what the request does to its parameters; each
`exec...` is the Request Processor taking it. -/

namespace Sys2Proof.Machine

/-! ## Where a record stands (section 1.3) -/

/-- The queued record with a target_id. -/
def State.queued? (s : State) (id : Nat) : Option TargetRecord :=
  s.seq.queue.find? (fun r => r.targetId == id)

/-- The active target with a target_id. -/
def State.active? (s : State) (id : Nat) : Option Running :=
  s.seq.active.filter (fun a => a.record.targetId == id)

/-- The shelved entry with a target_id. -/
def State.shelved? (s : State) (id : Nat) : Option Running :=
  s.seq.shelf.find? (fun a => a.record.targetId == id)

/-- A target_id stands in the queue, the active slot or the shelf (R6). -/
def State.present? (s : State) (id : Nat) : Bool :=
  (s.queued? id).isSome || (s.active? id).isSome || (s.shelved? id).isSome

/-- The record that stands under a target_id (R31). -/
def State.standing? (s : State) (id : Nat) : Option TargetRecord :=
  match s.active? id, s.shelved? id, s.queued? id with
  | some a, _, _ => some a.record
  | none, some e, _ => some e.record
  | none, none, r => r

/-- A record's position in a list, from 1 (R22). -/
def positionOf (id : Nat) (ids : List Nat) : Nat := ids.findIdx (fun i => i == id) + 1

/-! ## Submit Target (R9 to R11) -/

/-- The rot_fixed checks of a submit request (R10, steps 2 and 3). -/
def State.fixedRefusal (s : State) (r : TargetRecord) : Option Status :=
  match r.rotMode, s.planner.limits with
  | .follow, _ => none
  | .fixed _, none => some .notReady
  | .fixed angle, some l =>
    if l.rot.softMin ≤ angle ∧ angle ≤ l.rot.softMax then none else some .outOfLimits

/-- A record placed directly behind the one with a target_id (R11). -/
def insertBehind (id : Nat) (r : TargetRecord) : List TargetRecord → List TargetRecord
  | [] => [r]
  | q :: qs => if q.targetId = id then q :: r :: qs else q :: insertBehind id r qs

/-- The queue with a NORMAL record placed at the tail or behind after_id (R11). -/
def placeRecord (queue : List TargetRecord) (after : Option Nat) (r : TargetRecord) :
    List TargetRecord :=
  match after with
  | none => queue ++ [r]
  | some id => insertBehind id r queue

/-- The first check of Submit Target that fails (R10), for a record formed from the parameters. -/
def State.submitRefusal (s : State) (r : TargetRecord) (after : Option Nat) : Option Status :=
  match s.fixedRefusal r with
  | some st => some st
  | none =>
    if s.present? r.targetId then some .duplicateId
    else if after.any (fun id => (s.queued? id).isNone) then some .notFound
    else if Config.queueSize ≤ s.seq.queue.length then some .queueFull
    else none

/-- A NORMAL record admitted: placed, with its chain headers opened (R11). -/
def State.admitRecord (s : State) (r : TargetRecord) (after : Option Nat) : State :=
  State.setQueue { s with chains := s.chains ++ r.neededLanes.map (openChain r.targetId) }
    (placeRecord s.seq.queue after r)

/-- Submit Target (R9 to R11). -/
def submitTargetBody (p : List Byte) (s : State) : State × Reply :=
  if p.length ≠ 32 ∨ 16 ≤ natAt p 2 1 ∨ afterIdOf p = some 0 then refuse s .badParam
  else
    match recordOf p .normal s.time.valid s.time.mount with
    | none => refuse s .badParam
    | some r =>
      match s.submitRefusal r (afterIdOf p) with
      | some st => refuse s st
      | none =>
        let t := s.admitRecord r (afterIdOf p)
        accept (t.retestIfHeadChanged s)
          (natBytes 1 (positionOf r.targetId (t.seq.queue.map (·.targetId))) ++
            natBytes 1 t.seq.queue.length)

def execSubmitTarget (s : State) : Host.Outcome State Fault Refusal :=
  .next (takeRequest .submitTarget submitTargetBody s)

/-! ## Submit Opportunity (R12 to R14, R67) -/

/-- The seeds as lanes and segments, where no two name one lane, each names a lane, and none names ROT
for a FIXED target (R13). -/
def seedLanes (r : TargetRecord) (seeds : List (Nat × Segment)) : Option (List (Lane × Segment)) :=
  let lanes := seeds.filterMap (fun sd => (laneOf sd.1).map (fun x => (x, sd.2)))
  if lanes.length = seeds.length ∧ (lanes.map (·.1)).Nodup ∧
      (∀ x ∈ lanes.map (·.1), x ∈ r.neededLanes)
  then some lanes else none

/-- The first seed check that fails (R13, step 4). -/
def State.seedRefusal (s : State) (seeds : List (Lane × Segment)) : Option Status :=
  if freeSlots s.chains < seeds.length then some .storeFull
  else
    seeds.findSome? (fun sd => checkSegment s.planner.limits s.planner.axes sd.1 none sd.2)

/-- The chains of an admitted opportunity, each seeded where it has a seed (R14). -/
def State.seededChains (s : State) (r : TargetRecord) (seeds : List (Lane × Segment)) :
    List Chain :=
  r.neededLanes.map (fun x =>
    (openChain r.targetId x).append ((seeds.filter (fun sd => decide (sd.1 = x))).map (·.2))
      s.time.mount s.horizon)

/-- The running target's record and context as they go onto the shelf (R67, R143). -/
def Running.shelve (a : Running) : Running :=
  { a with ctx.guide := { a.ctx.guide with watch := none, lost := none } }

/-- The running target pushed onto the shelf, its spell ended (R67, step 2). -/
def State.pushActive (s : State) : State :=
  let t := s.endSpell
  match t.seq.active with
  | none => t
  | some a => { t with seq.active := none, seq.shelf := a.shelve :: t.seq.shelf }

/-- The plan of a preemption, where the opportunity can be planned and covered (R67, step 3); `s`
holds its chains. -/
def State.preemptPlan (s : State) (r : TargetRecord) : Option SlewPlan :=
  match s.chooseWrapFor s.present r (.fresh r.dwell s.time.mount 0) with
  | .plan p => if targetCovers s.chains r p.arrival (p.arrival + s.cover) then some p else none
  | .noCover _ => none
  | .noTrajectory => none

/-- Submit Opportunity in a running state: the preemption rule (R67). -/
def State.preempt (s : State) (r : TargetRecord) (chains : List Chain) : State × Reply :=
  if Config.shelfSize ≤ s.seq.shelf.length then refuse s .shelfFull
  else if s.time.valid = false ∨ startReached r s.time.mount = false then refuse s .notReady
  else
    let t := { s with chains := s.chains ++ chains }
    match t.preemptPlan r with
    | none => refuse s .notReady
    | some p => accept (t.pushActive.activate r p) [placeCode .active]

/-- Submit Opportunity outside the running states: position 1 of the queue (R14). -/
def State.queueFirst (s : State) (r : TargetRecord) (chains : List Chain) : State × Reply :=
  if Config.queueSize ≤ s.seq.queue.length then refuse s .queueFull
  else
    let t := State.setQueue { s with chains := s.chains ++ chains } (r :: s.seq.queue)
    accept (t.retestIfHeadChanged s) ([placeCode .queued] ++ natBytes 1 1)

/-- Submit Opportunity (R12 to R14). -/
def submitOpportunityBody (p : List Byte) (s : State) : State × Reply :=
  if 3 < natAt p 30 1 ∨ p.length ≠ 31 + 29 * natAt p 30 1 ∨ 8 ≤ natAt p 2 1 then
    refuse s .badParam
  else
    match recordOf p .opportunity s.time.valid s.time.mount with
    | none => refuse s .badParam
    | some r =>
      match seedLanes r (seedsOf p) with
      | none => refuse s .badParam
      | some seeds =>
        match s.fixedRefusal r with
        | some st => refuse s st
        | none =>
          if s.present? r.targetId then refuse s .duplicateId
          else
            match s.seedRefusal seeds with
            | some st => refuse s st
            | none =>
              if s.seq.motion.running then s.preempt r (s.seededChains r seeds)
              else s.queueFirst r (s.seededChains r seeds)

def execSubmitOpportunity (s : State) : Host.Outcome State Fault Refusal :=
  .next (takeRequest .submitOpportunity submitOpportunityBody s)

/-! ## Withdraw Target and Flush Queue (R17, R19) -/

/-- Withdraw Target for a target_id (R17). -/
def State.withdraw (s : State) (id : Nat) : State × Reply :=
  match s.active? id, s.shelved? id, s.queued? id with
  | some _, _, _ => accept (s.endActive .withdrawn .request) [placeCode .active]
  | none, some e, _ => accept (s.departShelved e .withdrawn .request) [placeCode .shelved]
  | none, none, some r =>
    accept ((s.departQueued r .withdrawn .request).retestIfHeadChanged s) [placeCode .queued]
  | none, none, none => refuse s .notFound

/-- Withdraw Target (R17). -/
def withdrawTargetBody (p : List Byte) (s : State) : State × Reply :=
  if p.length ≠ 2 ∨ natAt p 0 2 = 0 then refuse s .badParam else s.withdraw (natAt p 0 2)

def execWithdrawTarget (s : State) : Host.Outcome State Fault Refusal :=
  .next (takeRequest .withdrawTarget withdrawTargetBody s)

/-- Flush Queue (R19). -/
def flushQueueBody (p : List Byte) (s : State) : State × Reply :=
  if p ≠ [] then refuse s .badParam
  else
    accept (s.departAllQueued s.seq.queue .withdrawn .flush) (natBytes 1 s.seq.queue.length)

def execFlushQueue (s : State) : Host.Outcome State Fault Refusal :=
  .next (takeRequest .flushQueue flushQueueBody s)

/-! ## Run Queue and Hold Queue (R49) -/

/-- Run Queue (R49, log 28): a mode already RUN changes nothing; else an IDLE state tests
activation. -/
def runQueueBody (p : List Byte) (s : State) : State × Reply :=
  if p ≠ [] then refuse s .badParam
  else if s.seq.mode = .run then accept s [modeCode .run]
  else accept (State.testActivation { s with seq.mode := .run }) [modeCode .run]

def execRunQueue (s : State) : Host.Outcome State Fault Refusal :=
  .next (takeRequest .runQueue runQueueBody s)

/-- Hold Queue (R49). -/
def holdQueueBody (p : List Byte) (s : State) : State × Reply :=
  if p ≠ [] then refuse s .badParam
  else accept { s with seq.mode := .hold } [modeCode .hold]

def execHoldQueue (s : State) : Host.Outcome State Fault Refusal :=
  .next (takeRequest .holdQueue holdQueueBody s)

/-! ## Reading records (R22 to R24) -/

/-- The result of a Read Target (R22). -/
def targetBytes (place : Place) (position : Nat) (r : TargetRecord) (dwell : Option Nat) :
    List Byte :=
  [placeCode place] ++ natBytes 1 position ++ [classCode r.cls] ++ recordBytes r ++
    optNatBytes 4 (dwell.map shownDwell) ++ statisticsBytes r.stats ++
    natBytes 1 r.captures.length ++ [flagByte r.captureOverflow]

/-- Read Target for a target_id (R22). -/
def State.readTarget (s : State) (id : Nat) : State × Reply :=
  match s.active? id, s.shelved? id, s.queued? id with
  | some a, _, _ => accept s (targetBytes .active 0 a.record (some a.ctx.dwellRemaining))
  | none, some e, _ =>
    accept s (targetBytes .shelved (positionOf id (s.seq.shelf.map (·.record.targetId))) e.record
      (some e.ctx.dwellRemaining))
  | none, none, some r =>
    accept s (targetBytes .queued (positionOf id (s.seq.queue.map (·.targetId))) r none)
  | none, none, none => refuse s .notFound

/-- Read Target (R22). -/
def readTargetBody (p : List Byte) (s : State) : State × Reply :=
  if p.length ≠ 2 ∨ natAt p 0 2 = 0 then refuse s .badParam else s.readTarget (natAt p 0 2)

def execReadTarget (s : State) : Host.Outcome State Fault Refusal :=
  .next (takeRequest .readTarget readTargetBody s)

/-- The newest outcome-list entry with a target_id (R23). -/
def State.outcome? (s : State) (id : Nat) : Option OutcomeEntry :=
  s.seq.outcomes.reverse.find? (fun e => e.record.targetId == id)

/-- The result of a Read Outcome (R23). The axis is one byte, 0xFF where none applies, without a presence
byte, which is the model's choice (log 15). -/
def outcomeBytes (e : OutcomeEntry) (count : Nat) : List Byte :=
  recordBytes e.record ++ statisticsBytes e.record.stats ++
    natBytes 1 e.record.captures.length ++
    [flagByte e.record.captureOverflow, verdictCode e.verdict, reasonCode e.reason,
      axisByte e.axis] ++
    natBytes 8 e.time ++ [placeCode e.place] ++ natBytes 1 count

/-- Read Outcome (R23). -/
def readOutcomeBody (p : List Byte) (s : State) : State × Reply :=
  if p.length ≠ 2 ∨ natAt p 0 2 = 0 then refuse s .badParam
  else
    match s.outcome? (natAt p 0 2) with
    | none => refuse s .notFound
    | some e => accept s (outcomeBytes e s.seq.outcomes.length)

def execReadOutcome (s : State) : Host.Outcome State Fault Refusal :=
  .next (takeRequest .readOutcome readOutcomeBody s)

/-- The result of a Read Captures (R24). -/
def capturesBytes (place : Byte) (page : Nat) (r : TargetRecord) : List Byte :=
  [place] ++ natBytes 1 page ++ natBytes 1 r.captures.length ++ [flagByte r.captureOverflow] ++
    (((r.captures.drop (8 * page)).take 8).map captureBytes).flatten

/-- Read Captures (R24). -/
def readCapturesBody (p : List Byte) (s : State) : State × Reply :=
  if p.length ≠ 3 ∨ natAt p 0 2 = 0 ∨ 1 < natAt p 2 1 then refuse s .badParam
  else
    let id := natAt p 0 2
    let page := natAt p 2 1
    match s.active? id, s.shelved? id, s.queued? id, s.outcome? id with
    | some a, _, _, _ => accept s (capturesBytes (placeCode .active) page a.record)
    | none, some e, _, _ => accept s (capturesBytes (placeCode .shelved) page e.record)
    | none, none, some r, _ => accept s (capturesBytes (placeCode .queued) page r)
    | none, none, none, some e => accept s (capturesBytes 3 page e.record)
    | none, none, none, none => refuse s .notFound

def execReadCaptures (s : State) : Host.Outcome State Fault Refusal :=
  .next (takeRequest .readCaptures readCapturesBody s)

/-! ## Adjust Dwell (R63) -/

/-- A queued record's dwell field changed (R63). -/
def State.setQueuedDwell (s : State) (id value : Nat) : State :=
  { s with seq.queue := s.seq.queue.map (fun r =>
      if r.targetId = id then { r with dwell := value } else r) }

/-- A shelved context's dwell remaining changed (R63). -/
def State.setShelvedDwell (s : State) (id value : Nat) : State :=
  { s with seq.shelf := s.seq.shelf.map (fun e =>
      if e.record.targetId = id then { e with ctx.dwellRemaining := value * 1000 } else e) }

/-- Adjust Dwell for a target_id (R63). -/
def State.adjustDwell (s : State) (id value : Nat) : State × Reply :=
  match s.active? id, s.shelved? id, s.queued? id with
  | some _, _, _ =>
    accept
      (if value = 0 then s.endActive .completed .none
       else s.mapContext (fun c => { c with dwellRemaining := value * 1000 }))
      [placeCode .active]
  | none, some e, _ =>
    accept
      (if value = 0 then s.departShelved e .completed .none else s.setShelvedDwell id value)
      [placeCode .shelved]
  | none, none, some _ =>
    if value < 1000 then refuse s .badParam
    else accept (s.setQueuedDwell id value) [placeCode .queued]
  | none, none, none => refuse s .notFound

/-- Adjust Dwell (R63). -/
def adjustDwellBody (p : List Byte) (s : State) : State × Reply :=
  if p.length ≠ 6 ∨ natAt p 0 2 = 0 ∨ 14400000 < natAt p 2 4 then refuse s .badParam
  else s.adjustDwell (natAt p 0 2) (natAt p 2 4)

def execAdjustDwell (s : State) : Host.Outcome State Fault Refusal :=
  .next (takeRequest .adjustDwell adjustDwellBody s)

end Sys2Proof.Machine
end

