-- ==== Sys2Proof/Machine/ChainRequests.lean ====
section
/-! DEFINITION. The chain requests (R30 to R37): Append Segments, Close Chain, Truncate Chain and Read
Chain. -/

namespace Sys2Proof.Machine

/-- The chain of a standing record's lane, with the status that refuses the request where there is
none: NOT_FOUND for no record, BAD_PARAM for the ROT lane of a FIXED one (R34, R35, R37). -/
def State.namedChain (s : State) (id : Nat) (x : Lane) : Except Status Chain :=
  match s.standing? id with
  | none => .error .notFound
  | some r =>
    if x ∈ r.neededLanes then
      match findChain s.chains id x with
      | some c => .ok c
      | none => .error .notFound
    else .error .badParam

/-! ## Append Segments (R30 to R33) -/

/-- The first of the checks on the chain that fails (R31, steps 3 to 7), with its index. -/
def State.appendRefusal (s : State) (c : Chain) (gs : List Segment) : Option (Status × Nat) :=
  if c.closed then some (.chainClosed, 0)
  else if Config.chainSize < gs.length + c.count then some (.chainFull, 0)
  else if freeSlots s.chains < gs.length then some (.storeFull, 0)
  else checkSegments s.planner.limits s.planner.axes c.lane c.ending 1 gs

/-- Segments stored at the end of a chain (R33). -/
def State.storeSegments (s : State) (id : Nat) (x : Lane) (gs : List Segment) : State :=
  { s with chains := mapChain s.chains id x (fun c => c.append gs s.time.mount s.horizon) }

/-- The end time that a chain shows; 0 where it has not started. -/
def Chain.endTime (c : Chain) : Nat := (c.ending.map (·.time)).getD 0

/-- Append Segments for a target, a lane and its segments (R31, R33). -/
def State.appendTo (s : State) (id : Nat) (x : Lane) (gs : List Segment) : State × Reply :=
  match s.namedChain id x with
  | .error st => refuseWith s st [0]
  | .ok c =>
    match s.appendRefusal c gs with
    | some (st, index) => refuseWith s st (natBytes 1 index)
    | none =>
      let t := s.storeSegments id x gs
      let c' := c.append gs s.time.mount s.horizon
      accept (if headId s.seq.queue = id then t.testActivation else t)
        ([0] ++ natBytes 1 c'.count ++ natBytes 8 c'.endTime ++ natBytes 2 (freeSlots t.chains))

/-- Append Segments (R30 to R33). -/
def appendSegmentsBody (p : List Byte) (s : State) : State × Reply :=
  match laneOf (natAt p 2 1) with
  | none => refuseWith s .badParam [0]
  | some x =>
    if p.length ≠ 4 + 28 * natAt p 3 1 ∨ natAt p 3 1 = 0 ∨ 4 < natAt p 3 1 ∨ natAt p 0 2 = 0 then
      refuseWith s .badParam [0]
    else s.appendTo (natAt p 0 2) x (appendedSegments p)

def execAppendSegments (s : State) : Host.Outcome State Fault Refusal :=
  .next (takeRequest .appendSegments appendSegmentsBody s)

/-! ## Close Chain (R34) -/

/-- Close Chain for a target and lane (R34). -/
def State.closeChain (s : State) (id : Nat) (x : Lane) : State × Reply :=
  match s.namedChain id x with
  | .error st => refuse s st
  | .ok c =>
    match c.ending with
    | none => refuse s .notReady
    | some e =>
      accept { s with chains := mapChain s.chains id x (fun c => { c with closed := true }) }
        (natBytes 1 c.count ++ natBytes 8 e.time)

/-- Close Chain (R34). -/
def closeChainBody (p : List Byte) (s : State) : State × Reply :=
  match laneOf (natAt p 2 1) with
  | none => refuse s .badParam
  | some x =>
    if p.length ≠ 3 ∨ natAt p 0 2 = 0 then refuse s .badParam
    else s.closeChain (natAt p 0 2) x

def execCloseChain (s : State) : Host.Outcome State Fault Refusal :=
  .next (takeRequest .closeChain closeChainBody s)

/-! ## Truncate Chain (R35, R36) -/

/-- A cut time is the start of a remaining segment, and for the active target lies at least a second
ahead (R35, steps 4 and 5). -/
def State.mayCut (s : State) (id : Nat) (c : Chain) (t : Nat) : Bool :=
  c.segments.any (fun g => decide (g.start = t)) &&
    ((s.active? id).isNone || decide (s.time.mount + 1000000 ≤ t))

/-- Truncate Chain for a target, a lane and a cut time (R35, R36). -/
def State.truncateChain (s : State) (id : Nat) (x : Lane) (t : Nat) : State × Reply :=
  match s.namedChain id x with
  | .error st => refuse s st
  | .ok c =>
    if s.mayCut id c t then
      accept { s with chains := mapChain s.chains id x (fun c => c.truncate t) }
        (natBytes 1 (c.count - (c.truncate t).count) ++ natBytes 1 (c.truncate t).count ++
          natBytes 8 t)
    else refuse s .badParam

/-- Truncate Chain (R35, R36). -/
def truncateChainBody (p : List Byte) (s : State) : State × Reply :=
  match laneOf (natAt p 2 1) with
  | none => refuse s .badParam
  | some x =>
    if p.length ≠ 11 ∨ natAt p 0 2 = 0 then refuse s .badParam
    else s.truncateChain (natAt p 0 2) x (natAt p 3 8)

def execTruncateChain (s : State) : Host.Outcome State Fault Refusal :=
  .next (takeRequest .truncateChain truncateChainBody s)

/-! ## Read Chain (R37) -/

/-- The result of a Read Chain (R37). An end_position or end_time that does not fit its bytes is shown
modulo their range, which is the model's choice (log 30). -/
def chainBytes (c : Chain) (first : Nat) : List Byte :=
  natBytes 1 c.count ++ [flagByte c.ending.isSome, flagByte c.closed, flagByte c.refillArmed] ++
    optNatBytes 8 (c.ending.map (·.time)) ++
    optIntBytes 4 (c.ending.map (fun e => wholeMas e.position)) ++
    optIntBytes 4 (c.ending.map (fun e => wholeMas e.velocity)) ++
    optNatBytes 8 (c.segments.head?.map (·.start)) ++
    (((c.segments.drop first).take 6).map segmentBytes).flatten

/-- Read Chain (R37). -/
def readChainBody (p : List Byte) (s : State) : State × Reply :=
  match laneOf (natAt p 2 1) with
  | none => refuse s .badParam
  | some x =>
    if p.length ≠ 4 ∨ natAt p 0 2 = 0 ∨ 127 < natAt p 3 1 then refuse s .badParam
    else
      match s.namedChain (natAt p 0 2) x with
      | .error st => refuse s st
      | .ok c => accept s (chainBytes c (natAt p 3 1))

def execReadChain (s : State) : Host.Outcome State Fault Refusal :=
  .next (takeRequest .readChain readChainBody s)

end Sys2Proof.Machine
end

