-- ==== Sys2Proof/Machine/ConditionRequests.lean ====
section
/-! DEFINITION. The condition requests: Set Masks, Clear Conditions and Read Conditions (R146, R151,
R152). -/

namespace Sys2Proof.Machine

/-- The flags of the active context, all clear while the slot is empty (R147). -/
def State.flags (s : State) : BitVec 8 :=
  match s.seq.active with
  | some a => a.ctx.flags
  | none => 0

/-- A byte that names conditions: one byte, bit 7 equal to 0 (R146, R151). -/
def conditionByte (p : List Byte) : Option (BitVec 8) :=
  match p with
  | [b] => if b.getLsbD 7 then none else some b
  | _ => none

/-- Set Masks (R146). -/
def setMasksBody (p : List Byte) (s : State) : State × Reply :=
  match conditionByte p with
  | none => refuse s .badParam
  | some m => accept { s with cond.mask := m } [m, pendingSet s.flags m]

def execSetMasks (s : State) : Host.Outcome State Fault Refusal :=
  .next (takeRequest .setMasks setMasksBody s)

/-- A context with the named flags cleared, and the indicator none where OFFSET_STACK is named
(R151). -/
def Context.clearFlags (c : Context) (named : BitVec 8) : Context :=
  { c with
    flags := c.flags &&& ~~~named
    indicator := if marks named .offsetStack then none else c.indicator }

/-- Clear Conditions (R151). -/
def clearConditionsBody (p : List Byte) (s : State) : State × Reply :=
  match conditionByte p with
  | none => refuse s .badParam
  | some named =>
    match s.seq.active with
    | none => refuse s .noTarget
    | some a =>
      accept (s.mapContext (fun c => c.clearFlags named))
        (natBytes 2 a.record.targetId ++ [a.ctx.flags &&& ~~~named])

def execClearConditions (s : State) : Host.Outcome State Fault Refusal :=
  .next (takeRequest .clearConditions clearConditionsBody s)

/-- The degrade-cause set as a byte, in the order in which R58 lists the causes, and the axes that
contribute each (R152, log 15). -/
def causesBytes (d : Causes) : List Byte :=
  [BitVec.ofNat 8 ((if d.has .trackError then 1 else 0) + (if d.has .limitClamp then 2 else 0) +
      (if d.has .rangeHold then 4 else 0) + (if d.has .underrunHold then 8 else 0)),
    laneSetByte d.trackError, laneSetByte d.limitClamp, laneSetByte d.rangeHold,
    laneSetByte d.underrunHold]

/-- The alarm record: the first cause as Read Status gives it, and the cause set as a count and
the pairs in the order in which they joined, which is the model's choice (R152, log 15). -/
def alarmRecordBytes (c : ConditionUnit) : List Byte :=
  firstCauseBytes c.first ++ natBytes 1 c.causeSet.length ++
    (c.causeSet.map (fun k => [alarmCode k.1, axisByte k.2])).flatten

/-- The OFFSET_STACK indicator of the active context. -/
def State.indicator (s : State) : Option Indicator := s.seq.active.bind (·.ctx.indicator)

/-- The result of a Read Conditions (R152). -/
def State.conditionsBytes (s : State) : List Byte :=
  [s.cond.mask] ++ natBytes 2 s.activeId ++
    [s.flags, indicatorCode s.indicator, pendingSet s.flags s.cond.mask] ++
    causesBytes s.servo.causes ++ alarmRecordBytes s.cond

/-- Read Conditions (R152). -/
def readConditionsBody (p : List Byte) (s : State) : State × Reply :=
  if p ≠ [] then refuse s .badParam else accept s s.conditionsBytes

def execReadConditions (s : State) : Host.Outcome State Fault Refusal :=
  .next (takeRequest .readConditions readConditionsBody s)

end Sys2Proof.Machine
end

