-- ==== Sys2Proof/Machine/Corrections.lean ====
section
/-! DEFINITION. The correction requests (chapter 5): the pointing term tables and the offset stack. -/

namespace Sys2Proof.Machine

/-! ## Term tables (R99 to R102) -/

/-- The staged record with a term's identity (R96). -/
def State.stagedTerm (s : State) (kind n phase : Nat) : Option Term :=
  s.corr.staged.find? (fun t => t.named kind n phase)

/-- Write Term (R99). -/
def writeTermBody (p : List Byte) (s : State) : State × Reply :=
  let t : Term := { kind := natAt p 0 1, n := natAt p 1 1, phase := natAt p 2 1, c := intAt p 3 4 }
  if p.length ≠ 7 ∨ termForm t.kind t.n t.phase = false ∨ 3600000 < t.c.natAbs then
    refuse s .badParam
  else if (s.stagedTerm t.kind t.n t.phase).isSome then refuse s .duplicateTerm
  else if Config.termSize ≤ s.corr.staged.length then refuse s .tableFull
  else
    accept { s with corr.staged := s.corr.staged ++ [t] } (natBytes 1 (s.corr.staged.length + 1))

def execWriteTerm (s : State) : Host.Outcome State Fault Refusal :=
  .next (takeRequest .writeTerm writeTermBody s)

/-- The staged table without a term (R100). -/
def withoutTerm (ts : List Term) (kind n phase : Nat) : List Term :=
  ts.filter (fun t => !t.named kind n phase)

/-- Delete Term (R100). -/
def deleteTermBody (p : List Byte) (s : State) : State × Reply :=
  let kind := natAt p 0 1
  let n := natAt p 1 1
  let phase := natAt p 2 1
  if p.length ≠ 3 ∨ termForm kind n phase = false then refuse s .badParam
  else if (s.stagedTerm kind n phase).isNone then refuse s .notFound
  else
    accept { s with corr.staged := withoutTerm s.corr.staged kind n phase }
      (natBytes 1 (withoutTerm s.corr.staged kind n phase).length)

def execDeleteTerm (s : State) : Host.Outcome State Fault Refusal :=
  .next (takeRequest .deleteTerm deleteTermBody s)

/-- An immediate commit: the active table becomes the staged one, and COMMIT_TAKEN is offered with
the mark IMMEDIATE (R102). -/
def State.commitNow (s : State) : State :=
  State.report { s with corr.active := s.corr.staged, corr.commitPending := false }
    (.commitTaken s.corr.staged.length false) s.activeId

/-- Commit Terms: TAKEN at once, or PENDING in the composing states (R102). -/
def commitTermsBody (p : List Byte) (s : State) : State × Reply :=
  if p ≠ [] then refuse s .badParam
  else if s.seq.motion.composing then accept { s with corr.commitPending := true } [1]
  else accept s.commitNow [0]

def execCommitTerms (s : State) : Host.Outcome State Fault Refusal :=
  .next (takeRequest .commitTerms commitTermsBody s)

/-- The result of a Read Terms (R101). -/
def State.termsBytes (s : State) (table : Nat) (ts : List Term) : List Byte :=
  natBytes 1 table ++ natBytes 1 ts.length ++ [flagByte s.corr.commitPending] ++
    (ts.map termBytes).flatten

/-- Read Terms (R101). -/
def readTermsBody (p : List Byte) (s : State) : State × Reply :=
  if p.length ≠ 1 ∨ 1 < natAt p 0 1 then refuse s .badParam
  else accept s (s.termsBytes (natAt p 0 1) (if natAt p 0 1 = 0 then s.corr.staged else s.corr.active))

def execReadTerms (s : State) : Host.Outcome State Fault Refusal :=
  .next (takeRequest .readTerms readTermsBody s)

/-! ## The offset stack (R105 to R111) -/

/-- The effective offset on every lane (R105). -/
def OffsetStack.effectiveAll (st : OffsetStack) : Lanes Int := .of st.effective

/-- The effective offset lies within 3,600,000 mas on every lane (R105). -/
def OffsetStack.inRange (st : OffsetStack) : Bool :=
  allLanes.all (fun x => decide ((st.effective x).natAbs ≤ 3600000))

/-- The values a request gives the lanes of its set, and others keep (R107, R108). -/
def mergeLanes (set : Lanes Bool) (given kept : Lanes Int) : Lanes Int :=
  .of (fun x => if set.get x then given.get x else kept.get x)

/-- A push: the entry above the top receives the values, and the top rises (R107). -/
def OffsetStack.push (st : OffsetStack) (v : Lanes Int) : OffsetStack :=
  { entries := st.entries.set st.top v, top := st.top + 1 }

/-- A pop: the top falls, and the entry keeps its values (R108). -/
def OffsetStack.pop (st : OffsetStack) : OffsetStack := { st with top := st.top - 1 }

/-- The top entry, where there is one. -/
def OffsetStack.topEntry (st : OffsetStack) : Lanes Int := st.entries.getD (st.top - 1) (.const 0)

/-- The top entry replaced (R108). -/
def OffsetStack.replaceTop (st : OffsetStack) (v : Lanes Int) : OffsetStack :=
  { st with entries := st.entries.set (st.top - 1) v }

/-- Every entry EMPTY, with its values kept (R109). -/
def OffsetStack.clear (st : OffsetStack) : OffsetStack := { st with top := 0 }

/-- The parameters of Push Offset and Replace Top Offset pass their form check (R106). -/
def offsetForm (p : List Byte) : Bool :=
  decide (p.length = 13) && decide (1 ≤ natAt p 0 1) && decide (natAt p 0 1 ≤ 7)

/-- An effective-offset change as the Sequencer takes it (R57, R124). -/
def State.offsetChanged (s : State) : State :=
  match s.seq.motion with
  | .tracking => s.enter .settling
  | .settling =>
    { s with servo.settle := some { beginTime := s.time.mount, seen := .const false } }
  | .parked | .idle | .slewing | .degraded | .stopping | .parking | .alarm => s

/-- The active target's stack replaced; a change of any lane's sum is an effective-offset change
(R111). -/
def State.setStack (s : State) (old new : OffsetStack) : State :=
  let t := s.mapContext (fun c => { c with stack := new })
  if new.effectiveAll = old.effectiveAll then t else t.offsetChanged

/-- An OFFSET_STACK occurrence: the indicator recorded, the condition raised, and the request refused
(R110). -/
def State.stackFault (s : State) (i : Indicator) : State × Reply :=
  refuse ((s.mapContext (fun c => { c with indicator := some i })).raiseCondition .offsetStack
    (indicatorCode (some i)) 0) .stackFault

/-- Push Offset (R106, R107). -/
def pushOffsetBody (p : List Byte) (s : State) : State × Reply :=
  if offsetForm p = false then refuse s .badParam
  else
    match s.seq.active with
    | none => refuse s .noTarget
    | some a =>
      let st := a.ctx.stack
      let st' := st.push (mergeLanes (laneSetOf (natAt p 0 1)) (lanesAt p 1) (.const 0))
      if Config.stackSize ≤ st.top then s.stackFault .over
      else if st'.inRange then
        accept (s.setStack st st') (natBytes 1 st'.top ++ lanesBytes st'.effectiveAll)
      else refuse s .offsetRange

def execPushOffset (s : State) : Host.Outcome State Fault Refusal :=
  .next (takeRequest .pushOffset pushOffsetBody s)

/-- Pop Offset (R106, R108). -/
def popOffsetBody (p : List Byte) (s : State) : State × Reply :=
  if p ≠ [] then refuse s .badParam
  else
    match s.seq.active with
    | none => refuse s .noTarget
    | some a =>
      let st := a.ctx.stack
      if st.top = 0 then s.stackFault .under
      else
        accept (s.setStack st st.pop)
          (lanesBytes st.topEntry ++ natBytes 1 st.pop.top ++ lanesBytes st.pop.effectiveAll)

def execPopOffset (s : State) : Host.Outcome State Fault Refusal :=
  .next (takeRequest .popOffset popOffsetBody s)

/-- Replace Top Offset (R106, R108). -/
def replaceTopOffsetBody (p : List Byte) (s : State) : State × Reply :=
  if offsetForm p = false then refuse s .badParam
  else
    match s.seq.active with
    | none => refuse s .noTarget
    | some a =>
      let st := a.ctx.stack
      let v := mergeLanes (laneSetOf (natAt p 0 1)) (lanesAt p 1) st.topEntry
      let st' := st.replaceTop v
      if st.top = 0 then s.stackFault .under
      else if st'.inRange then
        accept (s.setStack st st') (lanesBytes v ++ lanesBytes st'.effectiveAll)
      else refuse s .offsetRange

def execReplaceTopOffset (s : State) : Host.Outcome State Fault Refusal :=
  .next (takeRequest .replaceTopOffset replaceTopOffsetBody s)

/-- Clear Offsets (R109). -/
def clearOffsetsBody (p : List Byte) (s : State) : State × Reply :=
  if p ≠ [] then refuse s .badParam
  else
    match s.seq.active with
    | none => refuse s .noTarget
    | some a =>
      accept (s.setStack a.ctx.stack a.ctx.stack.clear) (natBytes 1 a.ctx.stack.top)

def execClearOffsets (s : State) : Host.Outcome State Fault Refusal :=
  .next (takeRequest .clearOffsets clearOffsetsBody s)

/-- The entries of a stack as Read Offsets returns them, bottom first: a tag, 1 VALID or 0 EMPTY, and
the values (R109, log 15). -/
def stackBytes (top : Nat) : Nat → List (Lanes Int) → List Byte
  | _, [] => []
  | i, e :: es => flagByte (decide (i < top)) :: lanesBytes e ++ stackBytes top (i + 1) es

/-- Read Offsets (R109). -/
def readOffsetsBody (p : List Byte) (s : State) : State × Reply :=
  if p ≠ [] then refuse s .badParam
  else
    match s.seq.active with
    | none => refuse s .noTarget
    | some a =>
      accept s
        (natBytes 2 a.record.targetId ++ natBytes 1 a.ctx.stack.top ++
          stackBytes a.ctx.stack.top 0 a.ctx.stack.entries ++
          lanesBytes a.ctx.stack.effectiveAll ++ lanesBytes (a.ctx.applied.map wholeMas))

def execReadOffsets (s : State) : Host.Outcome State Fault Refusal :=
  .next (takeRequest .readOffsets readOffsetsBody s)

end Sys2Proof.Machine
end

