-- ==== Sys2Proof/Machine/MotionRequests.lean ====
section
/-! DEFINITION. The motion requests: Unpark, Park, Stop and Clear Alarm (R50, R69, R70, R73, R156). -/

namespace Sys2Proof.Machine

/-- The first axis that fails a test, in the order AZ, EL, ROT, which is the model's choice where Unpark
names one (R50 gives no order; log 31). -/
def firstAxis (test : Lane → Bool) : Option Lane := allLanes.find? (fun x => !test x)

/-- The measured angle of an axis's latest sample, in mas. -/
def State.measured (s : State) (x : Lane) : Option Int :=
  (s.servo.latest.get x).bind (·.measured)

/-- The hold position fixed at the measured angles of the latest samples; a free value where the
latest sample came before the axis table (R48, log 7). -/
def State.measuredHold (s : State) : Lanes Int :=
  .of (fun x => unitsOf ((s.measured x).getD (Config.freeAngle (s.freeIndex + laneCode x))))

/-- What Unpark and Clear Alarm do when they pass: RELEASE on each port, the hold position fixed, the
watches started, and IDLE entered (R50, R73, R128). -/
def State.leaveRest (s : State) : State :=
  State.enterIdle { s.releaseAll.startWatches with freeIndex := s.freeIndex + 3 } s.measuredHold

/-! ## Unpark (R50) -/

/-- An axis has delivered a SAMPLE within its watch interval before now (R50, log 27). -/
def State.sampledLately (s : State) (x : Lane) : Bool :=
  match s.servo.latest.get x with
  | none => false
  | some l =>
    decide (l.arrival ≤ s.time.mount) && decide (s.time.mount - l.arrival ≤ (s.axis x).watch)

/-- The first check of Unpark that fails: its number, and its axis for the fourth (R50, R180). -/
def State.unparkRefusal (s : State) : Option (List Byte) :=
  if s.planner.axes.isNone then some [1]
  else if s.planner.limits.isNone then some [2]
  else if s.time.valid = false then some [3]
  else (firstAxis s.sampledLately).map (fun x => [4, axisByte (some x)])

/-- Unpark (R50). -/
def unparkBody (p : List Byte) (s : State) : State × Reply :=
  if p ≠ [] then refuse s .badParam
  else if s.seq.motion ≠ .parked then refuse s .wrongState
  else
    match s.unparkRefusal with
    | some result => refuseWith s .notReady result
    | none => accept s.leaveRest []

def execUnpark (s : State) : Host.Outcome State Fault Refusal :=
  .next (takeRequest .unpark unparkBody s)

/-! ## Park (R70) and Stop (R69) -/

/-- Park in a state that takes it (R70). -/
def State.parkNow (s : State) : State :=
  match s.seq.motion with
  | .slewing | .settling | .tracking | .degraded =>
    { s.haltRun .park with seq.parkPending := true }
  | .idle => s.startPark s.present
  | .stopping => { s with seq.parkPending := true }
  | .parking | .parked | .alarm => s

/-- Park (R70). -/
def parkBody (p : List Byte) (s : State) : State × Reply :=
  if p ≠ [] then refuse s .badParam
  else if s.seq.motion = .alarm then refuse s .wrongState
  else accept s.parkNow [motionCode s.parkNow.seq.motion]

def execPark (s : State) : Host.Outcome State Fault Refusal :=
  .next (takeRequest .park parkBody s)

/-- Stop in a state that takes it (R69). -/
def State.stopNow (s : State) : State :=
  match s.seq.motion with
  | .slewing | .settling | .tracking | .degraded => s.haltRun .stop
  | .parking => State.startStop { s with seq.parkPending := false } s.present
  | .idle | .stopping | .parked | .alarm => s

/-- Stop (R69). -/
def stopBody (p : List Byte) (s : State) : State × Reply :=
  if p ≠ [] then refuse s .badParam
  else if s.seq.motion = .parked ∨ s.seq.motion = .alarm then refuse s .wrongState
  else accept s.stopNow [motionCode s.stopNow.seq.motion]

def execStop (s : State) : Host.Outcome State Fault Refusal :=
  .next (takeRequest .stop stopBody s)

/-! ## Clear Alarm (R73, R156) -/

/-- The requirement that an axis's latest-sample record fails, by its number: 4 NO_SAMPLE,
5 DRIVE_FAULT, 6 LIMIT_SWITCH, 7 HARD_LIMIT. That the four points under R156's item 4 count on in this way
is the model's choice (R180; log 35). -/
def State.axisRequirement (s : State) (x : Lane) : Option Byte :=
  match s.servo.latest.get x with
  | none => some 4
  | some l =>
    if l.seenSinceAlarm = false then some 4
    else if l.fault then some 5
    else if l.limitSwitch then some 6
    else
      match l.measured with
      | none => some 7
      | some m =>
        if (s.limit x).hardMin ≤ m ∧ m ≤ (s.limit x).hardMax then none else some 7

/-- The first requirement of Clear Alarm that is not met, with its axis for the last four (R156). -/
def State.clearRefusal (s : State) : Option (List Byte) :=
  if s.permit = false then some [1]
  else if s.planner.axes.isNone then some [2]
  else if s.planner.limits.isNone then some [3]
  else
    allLanes.findSome? (fun x => (s.axisRequirement x).map (fun n => [n, axisByte (some x)]))

/-- Clear Alarm (R73, R156). -/
def clearAlarmBody (p : List Byte) (s : State) : State × Reply :=
  if p ≠ [] then refuse s .badParam
  else if s.seq.motion ≠ .alarm then refuse s .wrongState
  else
    match s.clearRefusal with
    | some result => refuseWith s .notReady result
    | none => accept (State.leaveRest { s with cond.first := none, cond.causeSet := [] }) []

def execClearAlarm (s : State) : Host.Outcome State Fault Refusal :=
  .next (takeRequest .clearAlarm clearAlarmBody s)

end Sys2Proof.Machine
end

