-- ==== Sys2Proof/Machine/Setup.lean ====
section
/-! DEFINITION. The setup requests: the axis and limit tables, forwarding, the report destination and
supervision (R74, R79, R80, R83, R176, R184). -/

namespace Sys2Proof.Machine

/-! ## Load Axes and Load Limits (R79, R80, R83) -/

/-- The axis table and the global settings that 161 parameter bytes give (R83). -/
def axisTableOf (p : List Byte) : Option (Lanes AxisRecord × Globals) :=
  match axisRecordAt p 0, axisRecordAt p 51, axisRecordAt p 102, globalsAt p 153 with
  | some az, some el, some rot, some g => some (⟨az, el, rot⟩, g)
  | _, _, _, _ => none

/-- Every park angle lies inside its axis's soft limits (R79, R83). -/
def parkInside (axes : Lanes AxisRecord) (limits : Lanes AxisLimits) : Bool :=
  allLanes.all (fun x =>
    decide ((limits.get x).softMin ≤ (axes.get x).parkAngle) &&
      decide ((axes.get x).parkAngle ≤ (limits.get x).softMax))

/-- An axis table taken: the records and settings replaced, and the telemetry counts set to 0
(R83, R127). -/
def State.setAxes (s : State) (axes : Lanes AxisRecord) (g : Globals) : State :=
  { s with
    planner.axes := some axes
    planner.globals := g
    servo.telemetryCount := .const 0 }

/-- Load Axes (R83). -/
def loadAxesBody (p : List Byte) (s : State) : State × Reply :=
  if p.length ≠ 161 then refuse s .badParam
  else if s.seq.motion.resting = false then refuse s .wrongState
  else
    match axisTableOf p with
    | none => refuse s .badParam
    | some (axes, g) =>
      if s.planner.limits.any (fun l => !parkInside axes l) then refuse s .outOfLimits
      else accept (s.setAxes axes g) []

def execLoadAxes (s : State) : Host.Outcome State Fault Refusal :=
  .next (takeRequest .loadAxes loadAxesBody s)

/-- An axis's four limits rise strictly and lie within the axis's range (R78). -/
def limitsForm (x : Lane) (l : AxisLimits) : Bool :=
  let bound : Int := match x with
    | .az => 972000000
    | .el | .rot => 1296000000
  decide (l.hardMin < l.softMin) && decide (l.softMin < l.softMax) &&
    decide (l.softMax < l.hardMax) && decide (-bound ≤ l.hardMin) && decide (l.hardMax ≤ bound)

/-- Every hold position lies inside its axis's soft limits (R79, step 6). -/
def holdInside (hold : Lanes Int) (limits : Lanes AxisLimits) : Bool :=
  allLanes.all (fun x =>
    decide (unitsOf (limits.get x).softMin ≤ hold.get x) &&
      decide (hold.get x ≤ unitsOf (limits.get x).softMax))

/-- Load Limits (R79). -/
def loadLimitsBody (p : List Byte) (s : State) : State × Reply :=
  let l : Lanes AxisLimits := ⟨limitsAt p 0, limitsAt p 16, limitsAt p 32⟩
  if p.length ≠ 48 then refuse s .badParam
  else if s.planner.limitsLocked then refuse s .locked
  else if s.seq.motion.resting = false then refuse s .wrongState
  else if allLanes.all (fun x => limitsForm x (l.get x)) = false then refuse s .badParam
  else if s.planner.axes.any (fun a => !parkInside a l) then refuse s .outOfLimits
  else if s.seq.motion = .idle ∧ holdInside s.seq.hold l = false then refuse s .outOfLimits
  else accept { s with planner.limits := some l } []

def execLoadLimits (s : State) : Host.Outcome State Fault Refusal :=
  .next (takeRequest .loadLimits loadLimitsBody s)

/-- Lock Limits (R80). -/
def lockLimitsBody (p : List Byte) (s : State) : State × Reply :=
  if p ≠ [] then refuse s .badParam
  else if s.planner.limits.isNone then refuse s .notReady
  else accept { s with planner.limitsLocked := true } []

def execLockLimits (s : State) : Host.Outcome State Fault Refusal :=
  .next (takeRequest .lockLimits lockLimitsBody s)

/-! ## Load Forwarding (R176) and Set Report Destination (R184) -/

/-- An address that is the part's own or a drive proxy's (R176, R184). -/
def ownOrProxy (address b : Byte) : Bool := decide (b = address) || (proxyAxis b).isSome

/-- The forwarding table that the parameters give, where every entry passes (R176). -/
def forwardingOf (p : List Byte) : Option (List ForwardEntry) :=
  (List.range (natAt p 2 1)).mapM (fun i => forwardEntryAt p (3 + 4 * i))

/-- Load Forwarding (R176). -/
def loadForwardingBody (p : List Byte) (s : State) : State × Reply :=
  let dest := ifMarked (decide (natAt p 0 1 = 1)) (BitVec.ofNat 8 (natAt p 1 1))
  if p.length ≠ 3 + 4 * natAt p 2 1 ∨ Config.forwardingSize < natAt p 2 1 ∨ 1 < natAt p 0 1 ∨
      dest.any (ownOrProxy s.site.address) = true then
    refuse s .badParam
  else
    match forwardingOf p with
    | none => refuse s .badParam
    | some table =>
      accept { s with site.forwarding := table, site.telemetryDest := dest }
        (natBytes 1 table.length)

def execLoadForwarding (s : State) : Host.Outcome State Fault Refusal :=
  .next (takeRequest .loadForwarding loadForwardingBody s)

/-- Set Report Destination (R184). -/
def setReportDestinationBody (p : List Byte) (s : State) : State × Reply :=
  match p with
  | [b] =>
    if ownOrProxy s.site.address b then refuse s .badParam
    else accept { s with rep.dest := b } [s.rep.dest]
  | _ => refuse s .badParam

def execSetReportDestination (s : State) : Host.Outcome State Fault Refusal :=
  .next (takeRequest .setReportDestination setReportDestinationBody s)

/-! ## Enable Supervision (R74) -/

/-- Supervision turned on and locked with its two values, and the interval timer started (R74). -/
def State.superviseWith (s : State) (interval grace : Nat) : State :=
  { s with
    seq.sup := { s.seq.sup with
      on := true, locked := true, interval, grace, timer := some s.time.mount } }

/-- Enable Supervision (R74). -/
def enableSupervisionBody (p : List Byte) (s : State) : State × Reply :=
  if p.length ≠ 4 then refuse s .badParam
  else if s.seq.sup.locked then refuse s .locked
  else if natAt p 0 2 = 0 ∨ 600 < natAt p 0 2 ∨ 3600 < natAt p 2 2 then refuse s .badParam
  else accept (s.superviseWith (natAt p 0 2) (natAt p 2 2)) []

def execEnableSupervision (s : State) : Host.Outcome State Fault Refusal :=
  .next (takeRequest .enableSupervision enableSupervisionBody s)

end Sys2Proof.Machine
end

