-- ==== Sys2Proof/Machine/Dispatch.lean ====
section
/-! DEFINITION. The meaning of every command: one arm per row of spec/opcode_table.json. -/

namespace Sys2Proof.Machine

/-- The effect of a command on everything but the queue of commands. -/
def exec (i : Instr) (s : State) : Host.Outcome State Fault Refusal :=
  match i with
  | .submitTarget => Sys2Proof.Machine.execSubmitTarget s
  | .submitOpportunity => Sys2Proof.Machine.execSubmitOpportunity s
  | .withdrawTarget => Sys2Proof.Machine.execWithdrawTarget s
  | .flushQueue => Sys2Proof.Machine.execFlushQueue s
  | .runQueue => Sys2Proof.Machine.execRunQueue s
  | .holdQueue => Sys2Proof.Machine.execHoldQueue s
  | .readTarget => Sys2Proof.Machine.execReadTarget s
  | .readOutcome => Sys2Proof.Machine.execReadOutcome s
  | .readCaptures => Sys2Proof.Machine.execReadCaptures s
  | .adjustDwell => Sys2Proof.Machine.execAdjustDwell s
  | .appendSegments => Sys2Proof.Machine.execAppendSegments s
  | .closeChain => Sys2Proof.Machine.execCloseChain s
  | .truncateChain => Sys2Proof.Machine.execTruncateChain s
  | .readChain => Sys2Proof.Machine.execReadChain s
  | .unpark => Sys2Proof.Machine.execUnpark s
  | .park => Sys2Proof.Machine.execPark s
  | .stop => Sys2Proof.Machine.execStop s
  | .clearAlarm => Sys2Proof.Machine.execClearAlarm s
  | .writeTerm => Sys2Proof.Machine.execWriteTerm s
  | .deleteTerm => Sys2Proof.Machine.execDeleteTerm s
  | .commitTerms => Sys2Proof.Machine.execCommitTerms s
  | .readTerms => Sys2Proof.Machine.execReadTerms s
  | .pushOffset => Sys2Proof.Machine.execPushOffset s
  | .popOffset => Sys2Proof.Machine.execPopOffset s
  | .replaceTopOffset => Sys2Proof.Machine.execReplaceTopOffset s
  | .clearOffsets => Sys2Proof.Machine.execClearOffsets s
  | .readOffsets => Sys2Proof.Machine.execReadOffsets s
  | .configureGuide => Sys2Proof.Machine.execConfigureGuide s
  | .startGuiding => Sys2Proof.Machine.execStartGuiding s
  | .stopGuiding => Sys2Proof.Machine.execStopGuiding s
  | .setMasks => Sys2Proof.Machine.execSetMasks s
  | .clearConditions => Sys2Proof.Machine.execClearConditions s
  | .readConditions => Sys2Proof.Machine.execReadConditions s
  | .loadAxes => Sys2Proof.Machine.execLoadAxes s
  | .loadLimits => Sys2Proof.Machine.execLoadLimits s
  | .lockLimits => Sys2Proof.Machine.execLockLimits s
  | .loadForwarding => Sys2Proof.Machine.execLoadForwarding s
  | .setReportDestination => Sys2Proof.Machine.execSetReportDestination s
  | .enableSupervision => Sys2Proof.Machine.execEnableSupervision s
  | .setTime => Sys2Proof.Machine.execSetTime s
  | .setTimeAtPulse => Sys2Proof.Machine.execSetTimeAtPulse s
  | .readTime => Sys2Proof.Machine.execReadTime s
  | .peekTime => Sys2Proof.Machine.execPeekTime s
  | .readStatus => Sys2Proof.Machine.execReadStatus s
  | .resetController => Sys2Proof.Machine.execResetController s
  | .unknownRequest => Sys2Proof.Machine.execUnknownRequest s
  | .requestFrameReception f => Sys2Proof.Machine.execRequestFrameReception f s
  | .guideFrame f => Sys2Proof.Machine.execGuideFrame f s
  | .sample x f => Sys2Proof.Machine.execSample x f s
  | .proxyServiceFrame f => Sys2Proof.Machine.execProxyServiceFrame f s
  | .serviceReply x f => Sys2Proof.Machine.execServiceReply x f s
  | .linkError p input => Sys2Proof.Machine.execLinkError p input s
  | .siteTransmitStart => Sys2Proof.Machine.execSiteTransmitStart s
  | .axisTransmitStart x => Sys2Proof.Machine.execAxisTransmitStart x s
  | .pinReset straps permit => Sys2Proof.Machine.execPinReset straps permit s
  | .permitLost => Sys2Proof.Machine.execPermitLost s
  | .pulseEdge => Sys2Proof.Machine.execPulseEdge s
  | .shutterEdge e => Sys2Proof.Machine.execShutterEdge e s
  | .encoderSilent x => Sys2Proof.Machine.execEncoderSilent x s
  | .supervisionLapse => Sys2Proof.Machine.execSupervisionLapse s
  | .graceExpiry => Sys2Proof.Machine.execGraceExpiry s
  | .guideWatchExpiry => Sys2Proof.Machine.execGuideWatchExpiry s
  | .guideLost => Sys2Proof.Machine.execGuideLost s
  | .dwellCompletion => Sys2Proof.Machine.execDwellCompletion s
  | .slewCompletion => Sys2Proof.Machine.execSlewCompletion s
  | .stopCompletion => Sys2Proof.Machine.execStopCompletion s
  | .windowExpiry targetId => Sys2Proof.Machine.execWindowExpiry targetId s
  | .startTimeReached => Sys2Proof.Machine.execStartTimeReached s
  | .permitRise => Sys2Proof.Machine.execPermitRise s
  | .frameTransmissionEnd p => Sys2Proof.Machine.execFrameTransmissionEnd p s
  | .waitIdleReturnToHunt p => Sys2Proof.Machine.execWaitIdleReturnToHunt p s

end Sys2Proof.Machine
end

