-- ==== Sys2Proof/Safety.lean ====
section
/-! DEFINITION. What a safe run keeps, in the terms that claims use: the capacities of the stores, the
agreement of the motion state with the active slot, the plan and the alarm record, the silence of the
setpoint slots at rest, the uniqueness of target_ids, the chain headers, and the bounds of the clock and
of the offset stacks; and the terms in which a statement says that a request is taken and answered. -/

namespace Sys2Proof.Machine

/-- The records that stand in the queue, the active slot and the shelf (section 1.3). -/
def State.standing (s : State) : List TargetRecord :=
  s.seq.queue ++ (s.seq.active.map (·.record)).toList ++ s.seq.shelf.map (·.record)

/-- The pairs of alarm kind and axis that the cause set can hold: PERMIT_LOST with no axis, and every
other kind with one (R154, R155). -/
def alarmPair (k : AlarmKind) (axis : Option Lane) : Prop := k = .permitLost ↔ axis = none

/-- A receiver in FRAME has not collected a whole frame, which is 6 header bytes, at most 240 payload bytes
and 2 CRC bytes; and in FRAME and WAIT_IDLE its line has not been idle for 2 byte times (R169, R171). -/
def RxState.bounded (r : RxState) : Prop :=
  (∀ bytes idle, r = .frame bytes idle → bytes.length < Config.payloadSize + 8 ∧ idle < 2) ∧
    ∀ idle, r = .waitIdle idle → idle < 2

/-- No store holds more than the manual gives it (R4, R7, R21, R66, R98, R127, R129, R155, R169, R172,
R173, R176, R178, R182). -/
def State.bounded (s : State) : Prop :=
  s.seq.queue.length ≤ Config.queueSize ∧ s.seq.shelf.length ≤ Config.shelfSize ∧
    s.seq.outcomes.length ≤ Config.outcomeSize ∧ s.site.requests.length ≤ Config.requestSize ∧
    s.site.responses.length ≤ Config.responseSize ∧
    s.site.telemetry.length ≤ Config.telemetrySize ∧
    s.site.forwarding.length ≤ Config.forwardingSize ∧
    s.rep.queue.length ≤ Config.reportSize ∧ s.corr.staged.length ≤ Config.termSize ∧
    s.corr.active.length ≤ Config.termSize ∧
    s.site.linkErrors ≤ Config.linkErrorMax ∧ s.site.rx.bounded ∧
    (s.site.returns.map (·.axis)).Nodup ∧
    (∀ r ∈ s.standing ++ s.seq.outcomes.map (·.record),
      r.captures.length ≤ Config.captureSize) ∧
    s.cond.causeSet.length ≤ 10 ∧ s.cond.causeSet.Nodup ∧
    (∀ p ∈ s.cond.causeSet, alarmPair p.1 p.2) ∧
    ∀ x : Lane, (s.ports.get x).rx.bounded ∧
      (s.ports.get x).service.length ≤ Config.serviceSize ∧
      (s.ports.get x).linkErrors ≤ Config.linkErrorMax

/-- The active slot is occupied exactly in the running states (R47). -/
def State.slotMatches (s : State) : Prop := s.seq.active.isSome = s.seq.motion.running

/-- The alarm record is empty in every state but ALARM, where it has a first cause (R155). -/
def State.alarmMatches (s : State) : Prop :=
  (s.cond.first.isSome = decide (s.seq.motion = .alarm)) ∧
    (s.seq.motion ≠ .alarm → s.cond.causeSet = [])

/-- The motion state that a plan belongs to (R84). -/
def Plan.state? : Plan → Option MotionState
  | .none => Option.none
  | .slew _ => some .slewing
  | .stop _ => some .stopping
  | .park _ => some .parking

/-- The motion states that follow a plan (R84, R119). -/
def MotionState.planned? : MotionState → Option MotionState
  | .slewing => some .slewing
  | .stopping => some .stopping
  | .parking => some .parking
  | .parked | .idle | .settling | .tracking | .degraded | .alarm => Option.none

/-- The current plan is the motion state's own: a slew in SLEWING, a stop profile in STOPPING, a park
slew in PARKING, and none elsewhere (R84). -/
def State.planMatches (s : State) : Prop := s.planner.current.state? = s.seq.motion.planned?

/-- No SETPOINT waits on an axis port in PARKED and ALARM (R121, R130, R131). -/
def State.quietAtRest (s : State) : Prop :=
  s.seq.motion = .parked ∨ s.seq.motion = .alarm → ∀ x : Lane, (s.ports.get x).setpoint = none

/-- A target_id appears at most once among the queue, the active slot and the shelf (R6). -/
def State.idsUnique (s : State) : Prop := (s.standing.map (·.targetId)).Nodup

/-- The owners and lanes of the chain headers that some records need (R1, R26). -/
def headersOf (rs : List TargetRecord) : List (Nat × Lane) :=
  rs.flatMap (fun r => r.neededLanes.map (fun x => (r.targetId, x)))

/-- A target_id of a standing record is 1..65535 (R1). -/
def State.idsValid (s : State) : Prop :=
  ∀ r ∈ s.standing, 1 ≤ r.targetId ∧ r.targetId ≤ 65535

/-- There is one chain header for each needed lane of each standing record, and no other (R26). -/
def State.headersMatch (s : State) : Prop :=
  (s.chains.map (fun c => (c.owner, c.lane))).Perm (headersOf s.standing)

/-- No more slots are LOADED than the Segment Store has (R25). -/
def State.storeFits (s : State) : Prop := loadedSlots s.chains ≤ Config.segmentSlots

/-- No chain holds more segments than the manual gives it (R26, R31). -/
def State.chainsFit (s : State) : Prop := ∀ c ∈ s.chains, c.segments.length ≤ Config.chainSize

/-- The running contexts: the active one and those on the shelf. -/
def State.contexts (s : State) : List Context :=
  (s.seq.active.map (·.ctx)).toList ++ s.seq.shelf.map (·.ctx)

/-- A stack has 8 entries and at most 8 VALID ones, and no effective offset that its present or a
lower top gives exceeds the bound on any lane (R105). -/
def OffsetStack.kept (st : OffsetStack) : Prop :=
  st.entries.length = Config.stackSize ∧ st.top ≤ Config.stackSize ∧
    ∀ top : Nat, top ≤ st.top → ∀ x : Lane,
      (OffsetStack.effective { st with top } x).natAbs ≤ 3600000

/-- Every running context's stack is kept (R105). -/
def State.stacksKept (s : State) : Prop := ∀ c ∈ s.contexts, c.stack.kept

/-- Mount time and a pending pulse load are unsigned 64-bit numbers (R158, R160). -/
def State.clockFits (s : State) : Prop :=
  s.time.mount ≤ Config.mountTimeMax ∧ ∀ v ∈ s.time.load, v ≤ Config.mountTimeMax

/-- While PERMIT is low the part is in ALARM (R154, R156). -/
def State.permitMatches (s : State) : Prop := s.permit = false → s.seq.motion = .alarm

/-- A DEGRADED spell runs exactly in DEGRADED, and a settle measurement is held exactly in SETTLING
(R59, R124). -/
def State.measuresMatch (s : State) : Prop :=
  s.seq.spell.isSome = decide (s.seq.motion = .degraded) ∧
    s.servo.settle.isSome = decide (s.seq.motion = .settling)

/-- The degrade-cause set is empty in TRACKING and outside the running states and is not empty in
DEGRADED, and a recover measurement is held exactly while TRACK_ERROR is in it (R58, R60, R125). -/
def State.causesMatch (s : State) : Prop :=
  (s.seq.motion = .tracking ∨ s.seq.motion.running = false → s.servo.causes.isEmpty = true) ∧
    (s.seq.motion = .degraded → s.servo.causes.isEmpty = false) ∧
    s.servo.recover.isSome = s.servo.causes.has .trackError

/-- The request at the head of the request buffer is an addressed one with some code and parameters,
and the response queue has room for its answer (R173). -/
def State.asks (s : State) (r : Request) (rest : List Request) (code : Byte) (p : List Byte) :
    Prop :=
  s.site.requests = r :: rest ∧ r.payload = code :: p ∧ r.dest ≠ 0xFF ∧
    s.site.responses.length < Config.responseSize

/-- A state with the request at the head taken and its response queued, and nothing else changed
(R173). -/
def State.answered (s : State) (r : Request) (rest : List Request) (code : Byte) (reply : Reply) :
    State :=
  { s with
    site.requests := rest
    site.responses := s.site.responses ++ [{ dest := r.src, tag := r.tag, code, reply }] }

/-- The answer OK with result bytes. -/
def okReply (result : List Byte) : Reply := { status := .ok, result }

/-- The record that the parameters of a submit request give, field by field (R9, R11, R12). -/
def submittedRecord (p : List Byte) (cls : TargetClass) : TargetRecord :=
  { targetId := natAt p 0 2
    cls
    earliestStart := if (natAt p 2 1).testBit 0 then some (natAt p 3 8) else none
    latestStart := if (natAt p 2 1).testBit 1 then some (natAt p 11 8) else none
    dwell := natAt p 19 4
    wrapPref :=
      if natAt p 23 1 = 0 then .auto else if natAt p 23 1 = 1 then .negative else .positive
    rotMode := if natAt p 24 1 = 0 then .follow else .fixed (intAt p 25 4)
    guideMode := if natAt p 29 1 = 0 then .none else if natAt p 29 1 = 1 then .optional else .required
    stats := .empty
    captures := []
    captureOverflow := false }

/-- after_id of a Submit Target, present by bit 3 of the presence byte (R9). -/
def submittedAfter (p : List Byte) : Option Nat :=
  if (natAt p 2 1).testBit 3 then some (natAt p 30 2) else none

/-- The first check of Submit Target, as R10 lists its conditions one by one. -/
def State.submitTargetBad (s : State) (p : List Byte) : Prop :=
  p.length ≠ 32 ∨ 16 ≤ natAt p 2 1 ∨ natAt p 0 2 = 0 ∨ natAt p 19 4 < 1000 ∨
    14400000 < natAt p 19 4 ∨ 2 < natAt p 23 1 ∨ 1 < natAt p 24 1 ∨ 2 < natAt p 29 1 ∨
    (natAt p 24 1 = 1 ∧ (natAt p 2 1).testBit 2 = false) ∨
    (natAt p 24 1 = 0 ∧ (natAt p 2 1).testBit 2 = true) ∨
    ((natAt p 2 1).testBit 0 = true ∧ (natAt p 2 1).testBit 1 = true ∧
      natAt p 11 8 ≤ natAt p 3 8) ∨
    ((natAt p 2 1).testBit 1 = true ∧ s.time.valid = true ∧ natAt p 11 8 < s.time.mount) ∨
    ((natAt p 2 1).testBit 3 = true ∧ natAt p 30 2 = 0)

/-- The status that answers a Submit Target: the first of the six checks that fails (R10). -/
def State.SubmitTargetAnswers (s : State) (p : List Byte) (status : Status) : Prop :=
  let bad := s.submitTargetBad p
  let notReady := natAt p 24 1 = 1 ∧ s.planner.limits = none
  let outside := natAt p 24 1 = 1 ∧ ∃ l, s.planner.limits = some l ∧
    (intAt p 25 4 < l.rot.softMin ∨ l.rot.softMax < intAt p 25 4)
  let duplicate := natAt p 0 2 ∈ s.standing.map (·.targetId)
  let missing := ∃ id, submittedAfter p = some id ∧ id ∉ s.seq.queue.map (·.targetId)
  let full := 64 ≤ s.seq.queue.length
  (bad → status = .badParam) ∧
    (¬bad → notReady → status = .notReady) ∧
    (¬bad → ¬notReady → outside → status = .outOfLimits) ∧
    (¬bad → ¬notReady → ¬outside → duplicate → status = .duplicateId) ∧
    (¬bad → ¬notReady → ¬outside → ¬duplicate → missing → status = .notFound) ∧
    (¬bad → ¬notReady → ¬outside → ¬duplicate → ¬missing → full → status = .queueFull) ∧
    (¬bad → ¬notReady → ¬outside → ¬duplicate → ¬missing → ¬full → status = .ok)

/-- The active target's offset stack replaced, with what an effective-offset change does by motion
state: TRACKING becomes SETTLING with its report, and the settle measurement starts afresh in
SETTLING (R57, R111, R124). -/
def State.stackTo (s : State) (a : Running) (st : OffsetStack) : State :=
  let changed := decide (st.effectiveAll ≠ a.ctx.stack.effectiveAll)
  let leaves := changed && decide (s.seq.motion = .tracking)
  { s with
    seq.active := some { a with ctx.stack := st }
    seq.motion := if leaves then .settling else s.seq.motion
    servo.settle :=
      if leaves || (changed && decide (s.seq.motion = .settling)) then
        some { beginTime := s.time.mount, seen := .const false }
      else s.servo.settle
    rep :=
      if leaves then
        offerReport s.rep (.phaseChange .tracking .settling) s.time.mount a.record.targetId
      else s.rep }

/-- The active target's record as it leaves: the duration of a DEGRADED spell joins its degraded_time
(R20, R59). -/
def State.leavingRecord (s : State) (a : Running) : TargetRecord :=
  { a.record with
    stats.degradedTime := a.record.stats.degradedTime +
      (s.seq.spell.map (fun sp => s.time.mount - sp.start)).getD 0 }

/-! ## Departures and the end of a target (R20, R64) -/

/-- The outcome entries of some records that leave one place by one cause, in order (R20). -/
def leaving (rs : List TargetRecord) (verdict : Verdict) (reason : Reason) (place : Place)
    (now : Nat) : List OutcomeEntry :=
  rs.map (fun record => { record, verdict, reason, axis := none, time := now, place })

/-- What some departures, one after another, do besides the place that is left: the records' chains are
released, and each adds its entry to the outcome list and offers its report (R20, R21, R45). -/
def State.departed (s : State) (es : List OutcomeEntry) : State :=
  { s with
    chains := s.chains.filter (fun c => decide (c.owner ∉ es.map (·.record.targetId)))
    seq.outcomes := es.foldl pushOutcome s.seq.outcomes
    rep := es.foldl (fun u e =>
      offerReport u (.targetOutcome e.verdict e.reason e.axis e.place) e.time e.record.targetId)
      s.rep }

/-- A queue with some records taken out. -/
def withoutRecords (queue rs : List TargetRecord) : List TargetRecord :=
  queue.filter (fun q => decide (q.targetId ∉ rs.map (·.targetId)))

/-- The Target Queue replaced: a starvation spell and a start-time-reached event belong to the head
(R53, R164), and a window-expiry event to a record that stands in the queue (R15, R165). -/
def State.queued (s : State) (queue : List TargetRecord) : State :=
  { s with
    seq.queue := queue
    seq.starved := s.seq.starved && decide (headId queue = headId s.seq.queue)
    seq.startHanded := s.seq.startHanded && decide (headId queue = headId s.seq.queue)
    seq.expiryHanded := (queue.filter (fun q => decide (q.targetId ∈ s.seq.expiryHanded))).map
      (·.targetId) }

/-- What a step of mount time to a value moves besides the clock: by a forward step the active target's
dwell, its guide watch and lost count as they run, the grace count, and a head whose start is crossed has
its event handed over; by a backward step the running encoder watches and the supervision interval restart
(R61, R138, R142, R164, R166; log 17). No expiry stays handed over, since those of the step are taken with
it (log 5). -/
def State.stepped (s : State) (value : Nat) : State :=
  let d := value - s.time.mount
  let counts : Running → Bool := fun a => decide (s.seq.motion = .tracking) &&
    (decide (a.record.guideMode ≠ .required) || decide (a.ctx.guide.state = .locked))
  let guides := decide (s.seq.motion = .tracking) || decide (s.seq.motion = .degraded)
  let up : Option Count → Option Count := fun c =>
    if guides then c.map (fun c => { c with elapsed := c.elapsed + d }) else c
  if s.time.mount ≤ value then
    { s with seq := { s.seq with
      active := s.seq.active.map (fun a =>
        { record := { a.record with stats.dwellCounted := a.record.stats.dwellCounted +
            (if counts a then min d a.ctx.dwellRemaining else 0) }
          ctx := { a.ctx with
            dwellRemaining := a.ctx.dwellRemaining - (if counts a then d else 0)
            guide := { a.ctx.guide with
              watch := up a.ctx.guide.watch, lost := up a.ctx.guide.lost } } })
      startHanded := s.seq.startHanded || (s.time.valid && s.seq.queue.head?.any (fun q =>
        q.earliestStart.any (fun e => decide (s.time.mount < e) && decide (e ≤ value))))
      expiryHanded := []
      sup.graceCount := s.seq.sup.graceCount.map (· + d) } }
  else
    { s with
      servo.watch := .of (fun x => (s.servo.watch.get x).map (fun _ =>
        { restart := value, interval := (s.axis x).watch }))
      seq.expiryHanded := []
      seq.sup.timer := s.seq.sup.timer.map (fun _ => value) }

/-- The queued records that leave EXPIRED with a step of mount time to a value, in queue order: those whose
latest_start it has passed, and those whose expiry was handed over before (R16, R165; log 5). -/
def State.passedBy (s : State) (value : Nat) : List TargetRecord :=
  s.seq.queue.filter (fun q => q.latestStart.any (fun l => decide (l < value)) ||
    decide (q.targetId ∈ s.seq.expiryHanded))

/-- Some queued records gone EXPIRED, one after another, with no activation test (R15, R16, R20). -/
def State.expiredFrom (s : State) (passed : List TargetRecord) : State :=
  (s.departed (leaving passed .expired .none .queued s.time.mount)).queued
    (withoutRecords s.seq.queue passed)

/-- The active target gone from the slot with its outcome, and with it what is kept for it: its spell, its
degrade causes and its measurements (R20, R58, R59, R124, R125). -/
def State.vacated (s : State) (a : Running) (verdict : Verdict) (reason : Reason)
    (axis : Option Lane) : State :=
  { s.departed [{ record := s.leavingRecord a, verdict, reason, axis, time := s.time.mount
                  place := .active }] with
    seq.active := none
    seq.spell := none
    servo.causes := .empty
    servo.settle := none
    servo.recover := none }

/-- The shelf emptied from the top down, every entry ABANDONED for one reason (R64, R69, R72). -/
def State.shelfLeft (s : State) (reason : Reason) : State :=
  { s.departed (leaving (s.seq.shelf.map (·.record)) .abandoned reason .shelved s.time.mount) with
    seq.shelf := [] }

/-- The motion state replaced with its PHASE_CHANGE report; at an entry to SLEWING, STOPPING or IDLE a
waiting commit is taken and reported (R47, R103). -/
def State.moved (s : State) (m : MotionState) : State :=
  let t : State := { s with
    seq.motion := m
    rep := offerReport s.rep (.phaseChange s.seq.motion m) s.time.mount s.activeId }
  if m ∈ [.slewing, .stopping, .idle] ∧ s.corr.commitPending = true then
    { t with
      corr.active := s.corr.staged
      corr.commitPending := false
      rep := offerReport t.rep (.commitTaken s.corr.staged.length true) s.time.mount s.activeId }
  else t

/-- A record and a context in the slot under a slew: the statistics' wrap, the plan and SLEWING (R54, R65,
R67, R89); the counter of free values is the model's (log 6). -/
def State.slotted (s : State) (record : TargetRecord) (ctx : Context) (p : SlewPlan) : State :=
  State.moved
    { s with
      seq.active := some
        { record := { record with
            stats.wrapK := some p.wrapK
            stats.wrapShort := record.stats.wrapShort || p.wrapShort }
          ctx := { ctx with wrapK := p.wrapK } }
      servo.causes := .empty
      servo.recover := none
      planner.current := .slew p
      freeIndex := s.freeIndex + 9 } .slewing

/-- A context back from the shelf: its lanes blend on from now, and its guide is OFF with the accumulator and
the guide hold kept (R65, R112, R143). -/
def Context.back (c : Context) (now : Nat) : Context :=
  { c with
    blendTime := .const now
    guide := { c.guide with state := .off, lastSeq := none, watch := none, lost := none } }

/-- What a state `t` is to a state `s` whose active target `a` has left with an outcome and whose
end-of-target rule has run from some commanded motions (R20, R64, R65, R76). With park pending the shelf is
ABANDONED LAPSE and the park slew begins; else the top of the shelf is restored where it can be planned and
covered, and else leaves ABANDONED NO_TRAJECTORY; and with an empty shelf a covered head is activated, and
where there is none that may be, the stop profile begins. -/
def State.endedFrom (s t : State) (origins : Lanes Motion) (a : Running) (verdict : Verdict)
    (reason : Reason) : Prop :=
  let u : State := { s.vacated a verdict reason none with seq.sup.graceCount := none }
  let noHead := s.seq.queue = [] ∨ s.seq.mode = .hold ∨ s.time.valid = false ∨
    ∃ q qs, s.seq.queue = q :: qs ∧ startReached q s.time.mount = false
  let stopped : State → State := fun v =>
    State.moved { v with planner.current := .stop (s.stopPlan origins) } .stopping
  (s.seq.parkPending = true → t = State.moved
    { u.shelfLeft .lapse with
      planner.current := .park (s.parkPlan origins)
      seq.parkPending := false
      freeIndex := s.freeIndex + 3 } .parking) ∧
  (s.seq.parkPending = false →
    (s.seq.shelf = [] → noHead → t = stopped u) ∧
    (s.seq.shelf = [] → ¬noHead → ∀ q qs, s.seq.queue = q :: qs →
      let v : State := { u with chains := retireTarget u.chains q.targetId s.time.mount }
      ∀ p, v.chooseWrapFor origins q (.fresh q.dwell s.time.mount 0) = .plan p →
        targetCovers v.chains q p.arrival
          (p.arrival + s.planner.globals.activationCover * 1000000) = true →
        t = (v.queued qs).slotted
          { q with stats.activationTime := some s.time.mount }
          (.fresh q.dwell s.time.mount p.wrapK) p) ∧
    ∀ e rest, s.seq.shelf = e :: rest →
      let v : State := { u with
        seq.shelf := rest
        chains := retireTarget u.chains e.record.targetId s.time.mount }
      let choice := v.chooseWrapFor origins e.record e.ctx
      (∀ p, choice = .plan p → targetCoversTime v.chains e.record p.arrival = true →
        t = v.slotted e.record (e.ctx.back s.time.mount) p) ∧
      ((∀ p, choice = .plan p → targetCoversTime v.chains e.record p.arrival = false) →
        rest = [] → noHead → t = stopped (v.departed
          (leaving [e.record] .abandoned .noTrajectory .shelved s.time.mount)))) ∧
  (offerReport s.rep (.targetOutcome verdict reason none .active) s.time.mount
      a.record.targetId).queue <+: t.rep.queue ∧
  (∀ c ∈ t.chains, c.owner ≠ a.record.targetId) ∧
  (t.seq.motion = .slewing ∨ t.seq.motion = .parking ∨ t.seq.motion = .stopping) ∧
  t.seq.active.isSome = decide (t.seq.motion = .slewing) ∧
  t.seq.sup = { s.seq.sup with graceCount := none } ∧
  t.time = s.time ∧ t.cond = s.cond ∧ t.ports = s.ports ∧ t.guide = s.guide ∧ t.site = s.site ∧
  t.seq.mode = s.seq.mode ∧ t.seq.hold = s.seq.hold ∧ t.servo.latest = s.servo.latest ∧
  t.servo.watch = s.servo.watch ∧ t.permit = s.permit ∧ t.pending = s.pending

/-- The end-of-target rule from the present commanded motion (R64, R84). -/
def State.ended (s t : State) (a : Running) (verdict : Verdict) (reason : Reason) : Prop :=
  s.endedFrom t s.present a verdict reason

/-! ## Conditions and degrade causes (R58 to R60, R148) -/

/-- The active target with a condition's flag set, and CONDITION_RAISED where the flag was clear (R148). -/
def State.flagged (s : State) (a : Running) (c : Condition) (qualifier : Byte)
    (captureTime : Nat) : State :=
  { s with
    seq.active := some { a with ctx.flags := a.ctx.flags ||| (1 <<< c.bit) }
    rep := if a.ctx.flags.getLsbD c.bit then s.rep else
      offerReport s.rep (.conditionRaised c (s.cond.mask.getLsbD c.bit) qualifier captureTime)
        s.time.mount a.record.targetId }

/-- A cause with one axis's contribution added; in TRACKING the target becomes DEGRADED with its report, and
a spell begins (R58, R59). -/
def State.caused (s : State) (c : DegradeCause) (x : Lane) : State :=
  let causes := s.servo.causes.put c ((s.servo.causes.get c).set x true)
  let tracking := decide (s.seq.motion = .tracking)
  { s with
    servo.causes := causes
    seq.motion := if tracking then .degraded else s.seq.motion
    seq.spell :=
      if tracking then some { start := s.time.mount, underrunSeen := causes.has .underrunHold }
      else s.seq.spell.map (fun sp =>
        { sp with underrunSeen := sp.underrunSeen || decide (c = .underrunHold) })
    rep :=
      if tracking then
        offerReport s.rep (.phaseChange .tracking .degraded) s.time.mount s.activeId
      else s.rep }

/-- TRACKING entered by a target: its report, the first acquisition_time, and guiding started where the
record asks for it and the guide hold is clear (R47, R56, R138; log 7 where no configuration is loaded). -/
def State.tracked (s : State) (a : Running) : State :=
  let acquired : TargetRecord := { a.record with
    stats.acquisitionTime := some (a.record.stats.acquisitionTime.getD s.time.mount) }
  let rep :=
    offerReport s.rep (.phaseChange s.seq.motion .tracking) s.time.mount a.record.targetId
  let g := a.ctx.guide
  if a.record.guideMode ≠ .none ∧ g.hold = false ∧ g.state = .off then
    { s with
      seq.motion := .tracking
      seq.active := some
        { record := acquired
          ctx := { a.ctx with guide := { g with
            state := .acquiring, lastSeq := none
            watch := some { elapsed := 0, length := 3 * s.guideWatch * 1000000 } } } }
      rep := offerReport rep
        (.guideState .off .acquiring .tracking (wholeMas g.accAz) (wholeMas g.accEl) none)
        s.time.mount a.record.targetId
      freeIndex := if s.guide = none then s.freeIndex + 1 else s.freeIndex }
  else { s with seq.motion := .tracking, seq.active := some { a with record := acquired }, rep }

/-- The degrade causes replaced by fewer: when that empties the set in DEGRADED, the spell ends and the
target becomes SETTLING where the spell has seen UNDERRUN_HOLD, else TRACKING (R59, R60). -/
def State.lowered (s : State) (a : Running) (causes : Causes) : State :=
  let t : State := { s with servo.causes := causes }
  let left : Running := { a with record := s.leavingRecord a }
  if s.seq.motion = .degraded ∧ causes.isEmpty = true ∧ s.servo.causes.isEmpty = false then
    if s.seq.spell.any (·.underrunSeen) then
      { t with
        seq.motion := .settling
        seq.active := some left
        seq.spell := none
        servo.settle := some { beginTime := s.time.mount, seen := .const false }
        rep := offerReport s.rep (.phaseChange .degraded .settling) s.time.mount
          a.record.targetId }
    else State.tracked { t with seq.active := some left, seq.spell := none } left
  else t

/-! ## Alarms (R72, R131, R155) -/

/-- A pair of kind and axis joins the cause set of the ALARM state with its report, where it is new
(R155). -/
def State.joined (s : State) (k : AlarmKind) (axis : Option Lane) : State :=
  if (k, axis) ∈ s.cond.causeSet then s
  else
    { s with
      cond.causeSet := s.cond.causeSet ++ [(k, axis)]
      rep := offerReport s.rep (.alarmRaised k axis false) s.time.mount s.activeId }

/-- ALARM entered from another state: the report and the first cause; the active target FAULTED and the
shelf ABANDONED; the queue held, park pending, the grace count and the plan gone; the encoder watches
stopped and the seen-since-alarm marks cleared; and on each port an in-flight SETPOINT cut off, no SETPOINT
waiting and a BRAKE (R72, R76, R116, R128, R131, R155). -/
def State.alarmed (s : State) (k : AlarmKind) (axis : Option Lane) : State :=
  let u : State := { s with
    cond.first := some { kind := k, axis, time := s.time.mount }
    cond.causeSet := [(k, axis)]
    rep := offerReport s.rep (.alarmRaised k axis true) s.time.mount s.activeId }
  let v := match s.seq.active with
    | some a => u.vacated a .faulted (.byAlarm k) axis
    | none => u
  State.moved
    { v.shelfLeft .aborted with
      seq.mode := .hold
      seq.parkPending := false
      seq.sup.graceCount := none
      planner.current := .none
      servo.watch := .const none
      servo.latest := s.servo.latest.map (Option.map (fun l : LatestSample =>
        { l with seenSinceAlarm := false }))
      ports := .of (fun x => { s.ports.get x with
        tx := { (s.ports.get x).tx with inFlight := (s.ports.get x).tx.inFlight.map cutInFlight }
        setpoint := none
        control := some (brakeFrame (s.axis x).node) }) } .alarm

/-- An alarm raised (R155). -/
def State.raised (s : State) (k : AlarmKind) (axis : Option Lane) : State :=
  if s.seq.motion = .alarm then s.joined k axis else s.alarmed k axis

/-! ## Samples (R115, R117, R122, R130) -/

/-- An accepted SAMPLE at an axis whose receiver hunts, that raises no alarm (R115, R117, R169). -/
def State.heard (s : State) (x : Lane) (f : Frame) (v : SampleFields) : Prop :=
  (s.ports.get x).rx = .hunt ∧ f.dest = 0x01 ∧ f.src = (s.axis x).node ∧ f.kind = 0x21 ∧
    sampleOf f.payload = some v ∧ v.fault = false ∧ v.limitSwitch = false ∧
    s.beyondHard x v = false

/-- The SETPOINT of a count, a velocity and a HOLD marker in the setpoint slot of an axis, under a tag
(R122, R130). -/
def State.commanding (s : State) (x : Lane) (tag : Byte) (count velocity : Int) (hold : Byte) :
    State :=
  { s with ports := s.ports.set x { s.ports.get x with
      setpoint := some
        { dest := (s.axis x).node, src := 0x01, kind := 0x20, tag
          payload := intBytes 4 count ++ intBytes 4 velocity ++ [hold] } } }

end Sys2Proof.Machine
end

