-- ==== Sys2Proof/WellFormed.lean ====
section
/-! DEFINITION. When a command's operands are ones the links and the queue can carry. -/

namespace Sys2Proof

/-- A received frame carries at most 240 payload bytes (R171); a longer length field is an Oversize
error and not a frame (R169). -/
def Frame.wellFormed (f : Frame) : Bool :=
  decide (f.payload.length ≤ Config.payloadSize)

/-- A character begins with its start bit, which is low: without one the line stays idle (R168). -/
def LineInput.wellFormed : LineInput → Bool
  | .char c => !c.getLsbD 0
  | .quiet _ => true

/-- The operands of a command are well formed: frames fit the frame layout, characters begin with a
start bit, and a window expiry names a target_id of 1..65535 (R1). -/
def Instr.wellFormed : Instr → Bool
  | .requestFrameReception f => f.wellFormed
  | .guideFrame f => f.wellFormed
  | .sample _ f => f.wellFormed
  | .proxyServiceFrame f => f.wellFormed
  | .serviceReply _ f => f.wellFormed
  | .linkError _ input => input.all LineInput.wellFormed
  | .windowExpiry targetId => decide (1 ≤ targetId) && decide (targetId ≤ 65535)
  | .submitTarget | .submitOpportunity | .withdrawTarget | .flushQueue | .runQueue | .holdQueue
  | .readTarget | .readOutcome | .readCaptures | .adjustDwell | .appendSegments | .closeChain
  | .truncateChain | .readChain | .unpark | .park | .stop | .clearAlarm | .writeTerm | .deleteTerm
  | .commitTerms | .readTerms | .pushOffset | .popOffset | .replaceTopOffset | .clearOffsets
  | .readOffsets | .configureGuide | .startGuiding | .stopGuiding | .setMasks | .clearConditions
  | .readConditions | .loadAxes | .loadLimits | .lockLimits | .loadForwarding
  | .setReportDestination | .enableSupervision | .setTime | .setTimeAtPulse | .readTime | .peekTime
  | .readStatus | .resetController | .unknownRequest | .siteTransmitStart
  | .axisTransmitStart _ | .pinReset _ _ | .permitLost | .pulseEdge | .shutterEdge _
  | .encoderSilent _ | .supervisionLapse | .graceExpiry | .guideWatchExpiry | .guideLost
  | .dwellCompletion | .slewCompletion | .stopCompletion | .startTimeReached | .permitRise
  | .frameTransmissionEnd _ | .waitIdleReturnToHunt _ => true

end Sys2Proof
end

