-- ==== Sys2Proof/Certificates/Slice0/Obligations.lean ====
section
/-! DEFINITION. The statements about the part, for the provers. -/

open Sys2Proof Sys2Proof.Machine

/-! ## The step, time and reset -/

/-- A step with a command in front of the queue is that command's meaning on the rest of the queue.
-/
def Obligations.StepRunsFrontCommand : Prop :=
  ∀ (c : Instr) (rest : List Instr) (s : State), s.pending = c :: rest →
    step s = exec c { s with pending := rest }

/-- With no command in the queue the part takes its own due event, and with none due one microsecond
passes, and this is the whole next state: mount time rises by one up to 2^64 - 1; while it rises,
the active target's dwell falls where it counts, its guide watch and lost count rise where they run,
the grace count rises, a head whose start is crossed has its event handed over, and every queued
record whose latest_start is passed has its window expiry handed over; every transmitter moves by
one byte time, and every receiver's line is idle for it, which ends WAIT_IDLE or truncates a frame
at the second such byte time; and nothing else changes (R61, R138, R142, R158, R164, R165, R168,
R169; that these happen on an empty queue is the model's choice, log 3). -/
def Obligations.StepWithoutCommands : Prop :=
  ∀ s : State, s.pending = [] →
    (∀ c, s.nextDue = some c → step s = exec c s) ∧
    (s.nextDue = none →
      let runs := decide (s.time.mount < 2 ^ 64 - 1)
      let counts : Running → Bool := fun a => runs && decide (s.seq.motion = .tracking) &&
        (decide (a.record.guideMode ≠ .required) || decide (a.ctx.guide.state = .locked))
      let guides := runs && (decide (s.seq.motion = .tracking) || decide (s.seq.motion = .degraded))
      let up : Option Count → Option Count := fun c =>
        if guides then c.map (fun c => { c with elapsed := c.elapsed + 1 }) else c
      let line : Transmitter → Transmitter := fun l =>
        { inFlight := l.inFlight.map (fun f => { f with pos := f.pos + 1 }), gap := l.gap - 1 }
      let quiet : RxState → RxState := fun r => match r with
        | .hunt => .hunt
        | .frame bytes idle => if 1 ≤ idle then .hunt else .frame bytes (idle + 1)
        | .waitIdle idle => if 1 ≤ idle then .hunt else .waitIdle (idle + 1)
      let counted : RxState → Nat → Nat := fun r n => match r with
        | .hunt | .waitIdle _ => n
        | .frame _ idle => if 1 ≤ idle ∧ n < 65535 then n + 1 else n
      step s = .next { s with
        time.mount := if runs then s.time.mount + 1 else s.time.mount
        seq := { s.seq with
          active := s.seq.active.map (fun a =>
            { record := { a.record with stats.dwellCounted := a.record.stats.dwellCounted +
                (if counts a then min 1 a.ctx.dwellRemaining else 0) }
              ctx := { a.ctx with
                dwellRemaining := a.ctx.dwellRemaining - (if counts a then 1 else 0)
                guide := { a.ctx.guide with
                  watch := up a.ctx.guide.watch, lost := up a.ctx.guide.lost } } })
          startHanded := s.seq.startHanded || (runs && s.time.valid &&
            s.seq.queue.head?.any (fun q =>
              decide (q.earliestStart = some (s.time.mount + 1))))
          expiryHanded := if runs && s.time.valid then
            (s.seq.queue.filter (fun q =>
              q.latestStart.any (fun l => decide (l < s.time.mount + 1)) ||
                decide (q.targetId ∈ s.seq.expiryHanded))).map (·.targetId)
            else s.seq.expiryHanded
          sup.graceCount :=
            if runs then s.seq.sup.graceCount.map (· + 1) else s.seq.sup.graceCount }
        site := { s.site with
          tx := line s.site.tx
          rx := quiet s.site.rx
          linkErrors := counted s.site.rx s.site.linkErrors }
        ports := .of (fun x => { s.ports.get x with
          tx := line (s.ports.get x).tx
          rx := quiet (s.ports.get x).rx
          linkErrors := counted (s.ports.get x).rx (s.ports.get x).linkErrors }) })

/-- What a pin reset leaves, as the manual gives it (R7, R21, R25, R47, R49, R66, R74, R78, R80,
R82, R84, R98, R116, R127 to R129, R132, R145, R155, R158, R168, R169, R172, R173, R175, R176, R178,
R183). -/
def Obligations.ResetStateValues : Prop :=
  let s := State.reset
  (s.time.mount = 0 ∧ s.time.valid = false ∧ s.time.pulseTime = none ∧ s.time.pulseNew = false ∧
    s.time.load = none) ∧
  (s.seq.queue = [] ∧ s.seq.active = none ∧ s.seq.shelf = [] ∧ s.seq.outcomes = [] ∧
    s.seq.mode = .hold ∧ s.seq.motion = .parked ∧ s.seq.parkPending = false ∧
    s.seq.sup.on = false ∧ s.seq.sup.locked = false ∧ s.seq.sup.lapsed = false ∧
    s.seq.sup.graceCount = none) ∧
  (s.chains = [] ∧ freeSlots s.chains = 1024) ∧
  (s.planner.limits = none ∧ s.planner.limitsLocked = false ∧ s.planner.axes = none ∧
    s.planner.globals =
      { settleTime := 2000, recoverTime := 1000, refillHorizon := 30, activationCover := 60 } ∧
    s.planner.current = .none) ∧
  (s.corr.staged = [] ∧ s.corr.active = [] ∧ s.corr.commitPending = false ∧ s.guide = none) ∧
  (∀ x : Lane, s.servo.latest.get x = none ∧ s.servo.watch.get x = none ∧
    s.servo.telemetryCount.get x = 0) ∧
  (s.cond.mask = 0x78 ∧ s.cond.first = none ∧ s.cond.causeSet = []) ∧
  (∀ x : Lane, (s.ports.get x).tx = { inFlight := none, gap := 2 } ∧
    (s.ports.get x).control = some (brakeFrame 0x02) ∧ (s.ports.get x).setpoint = none ∧
    (s.ports.get x).service = [] ∧ (s.ports.get x).requester = none ∧
    (s.ports.get x).rx = .hunt ∧ (s.ports.get x).linkErrors = 0) ∧
  (s.site.rx = .hunt ∧ s.site.linkErrors = 0 ∧ s.site.tx = { inFlight := none, gap := 2 } ∧
    s.site.requests = [] ∧ s.site.requestDropped = false ∧ s.site.responses = [] ∧
    s.site.telemetry = [] ∧ s.site.returns = [] ∧ s.site.forwarding = [] ∧
    s.site.telemetryDest = none) ∧
  (s.rep.queue = [] ∧ s.rep.dest = 0xFF ∧ s.rep.lost = false ∧ s.rep.lossMarker = false)

/-- A pin reset leaves the reset state at the address that the straps give; with PERMIT low at its
end the part is then in ALARM with PERMIT_LOST as first cause, its two reports and a BRAKE on each
port (R72, R154, R155, R158, R170; that waiting commands and the free index stay is the model's, log
4). -/
def Obligations.PinResetRestoresResetState : Prop :=
  ∀ (straps : BitVec 3) (s : State),
    exec (.pinReset straps true) s = .next { State.reset with
      site.address := 0x20 + straps.setWidth 8
      freeIndex := s.freeIndex
      pending := s.pending } ∧
    ∃ t : State, exec (.pinReset straps false) s = .next t ∧
      t.permit = false ∧ t.seq.motion = .alarm ∧ t.seq.mode = .hold ∧ t.seq.active = none ∧
      t.cond = { mask := 0x78, first := some { kind := .permitLost, axis := none, time := 0 }
                 causeSet := [(.permitLost, none)] } ∧
      t.rep.queue =
        [{ detail := .alarmRaised .permitLost none true, time := 0, targetId := 0
           precededByLoss := false },
         { detail := .phaseChange .parked .alarm, time := 0, targetId := 0
           precededByLoss := false }] ∧
      (∀ x : Lane, (t.ports.get x).control = some (brakeFrame 0x02) ∧
        (t.ports.get x).setpoint = none) ∧
      t.site = { State.reset.site with address := 0x20 + straps.setWidth 8 } ∧
      t.time = State.reset.time ∧ t.planner = State.reset.planner

/-! ## Invariants -/

/-- The reset state has every invariant stated below, and its straps and PERMIT level are the
model's (log 4). -/
def Obligations.InvariantsHoldAtReset : Prop :=
  let s := State.reset
  s.bounded ∧ s.slotMatches ∧ s.alarmMatches ∧ s.planMatches ∧ s.quietAtRest ∧ s.idsUnique ∧
    s.headersMatch ∧ s.storeFits ∧ s.stacksKept ∧ s.clockFits ∧ s.permitMatches ∧
    s.measuresMatch ∧ s.causesMatch ∧ s.idsValid ∧ s.chainsFit

/-- No step makes a queue, a list, a capture list, a table, the return slots, the alarm cause set, a
frame in reception or a link-error count larger than the manual allows, nor mount time or a pending
pulse load larger than 64 bits hold (R158, R160), nor a chain longer than 128 segments (R26). -/
def Obligations.StoresAndClockStayBounded : Prop :=
  (∀ s t : State, s.bounded → step s = .next t → t.bounded) ∧
  (∀ s t : State, s.clockFits → step s = .next t → t.clockFits) ∧
  (∀ s t : State, s.slotMatches → s.idsUnique → s.headersMatch → s.chainsFit →
    step s = .next t → t.chainsFit)

/-- Every step keeps the active slot occupied exactly in the running states (R47). -/
def Obligations.ActiveSlotMatchesMotion : Prop :=
  ∀ s t : State, s.slotMatches → step s = .next t → t.slotMatches

/-- Every step keeps the alarm record empty outside ALARM and with a first cause in it (R155), and
keeps the part in ALARM while PERMIT is low (R154, R156). -/
def Obligations.AlarmRecordMatchesMotion : Prop :=
  (∀ s t : State, s.slotMatches → s.alarmMatches → step s = .next t → t.alarmMatches) ∧
  (∀ s t : State, s.slotMatches → s.permitMatches → step s = .next t → t.permitMatches)

/-- Every step keeps the current plan the one that belongs to the motion state (R84), and the
setpoint slots empty in PARKED and ALARM (R121, R130, R131). -/
def Obligations.PlanAndSetpointsMatchMotion : Prop :=
  (∀ s t : State, s.slotMatches → s.planMatches → step s = .next t → t.planMatches) ∧
  (∀ s t : State, s.slotMatches → s.quietAtRest → step s = .next t → t.quietAtRest)

/-- Every step keeps each target_id at most once among the queue, the slot and the shelf (R6), and
each of them 1..65535 (R1). -/
def Obligations.TargetIdsStayUnique : Prop :=
  (∀ s t : State, s.idsUnique → step s = .next t → t.idsUnique) ∧
  (∀ s t : State, s.idsValid → step s = .next t → t.idsValid)

/-- Every step keeps one chain header for each needed lane of each standing record, and no other,
and at most 1,024 segment slots LOADED (R25, R26, R45). -/
def Obligations.ChainsMatchRecordsAndFit : Prop :=
  (∀ s t : State, s.slotMatches → s.idsUnique → s.headersMatch → step s = .next t →
    t.headersMatch) ∧
  (∀ s t : State, s.slotMatches → s.idsUnique → s.headersMatch → s.storeFits → step s = .next t →
    t.storeFits)

/-- Every step keeps each offset stack at 8 entries with every effective offset it can return to
within 3,600,000 mas (R105). -/
def Obligations.OffsetStacksStayInRange : Prop :=
  ∀ s t : State, s.stacksKept → step s = .next t → t.stacksKept

/-- Every step keeps a DEGRADED spell exactly in DEGRADED and a settle measurement exactly in
SETTLING (R59, R124), and keeps the degrade-cause set empty in TRACKING and outside the running
states, not empty in DEGRADED, and a recover measurement exactly while TRACK_ERROR is in the set
(R58, R60, R125). -/
def Obligations.MeasuresAndCausesMatchMotion : Prop :=
  (∀ s t : State, s.slotMatches → s.measuresMatch → step s = .next t → t.measuresMatch) ∧
  (∀ s t : State, s.slotMatches → s.causesMatch → step s = .next t → t.causesMatch)

/-! ## The links' encoding -/

/-- The wire form of every frame of at most 240 payload bytes is the start byte, the header, the
payload and the CRC, it reads back as that frame, and its characters take a hunting receiver to that
frame and back to HUNT; the CRC of the nine ASCII bytes "123456789" is 0x29B1 (R169, R171). A
character is a low start bit, the byte's 8 bits with the least significant first, and a high stop
bit, and a line with nothing to send is high (R168). -/
def Obligations.WireFormReadsBack : Prop :=
  (∀ f : Frame, f.wellFormed = true →
    frameWire f = [0xA5, f.dest, f.src, f.kind, f.tag] ++ natBytes 2 f.payload.length ++
      f.payload ++ natBytes 2 (crc16 ([f.dest, f.src, f.kind, f.tag] ++
        natBytes 2 f.payload.length ++ f.payload)).toNat ∧
    frameOfWire (frameWire f) = some f ∧
    rxRun .hunt (frameLine f) = (.hunt, [.received f])) ∧
  (crc16 [0x31, 0x32, 0x33, 0x34, 0x35, 0x36, 0x37, 0x38, 0x39] = 0x29B1) ∧
  (∀ b : Byte, (lineChar b).getLsbD 0 = false ∧
    (∀ i : Nat, i < 8 → (lineChar b).getLsbD (i + 1) = b.getLsbD i) ∧
    (lineChar b).getLsbD 9 = true ∧ charByte (lineChar b) = b) ∧
  (∀ l : Transmitter,
    (l.inFlight = none → l.line = 0x3FF) ∧
    ∀ f, l.inFlight = some f →
      (∀ b, f.wire[f.pos]? = some b → l.line = lineChar b) ∧
      (f.wire.length ≤ f.pos → l.line = 0x3FF))

/-! ## Requests in general -/

/-- An addressed request with room for its answer is taken and answered once, at the tail of the
response queue and with its own tag and code; a refusal other than STACK_FAULT changes nothing else
(R106, R110, R173, R180, R181). Reset Controller empties the queues but for its own response. -/
def Obligations.EveryRequestIsAnsweredOnce : Prop :=
  ∀ (s : State) (r : Request) (rest : List Request) (code : Byte) (p : List Byte),
    s.asks r rest code p →
    ∃ t reply, exec (requestOf (code :: p)) s = .next t ∧
      t.site.responses.getLast? = some { dest := r.src, tag := r.tag, code, reply } ∧
      (requestOf (code :: p) ≠ .resetController →
        t.site.requests = rest ∧
          t.site.responses =
            s.site.responses ++ [{ dest := r.src, tag := r.tag, code, reply }]) ∧
      (reply.status ≠ .ok → reply.status ≠ .stackFault → t = s.answered r rest code reply)

/-- A broadcast request is taken without room in the response queue and gets no response: Hold Queue
and Set Time At Pulse, Stop and Park act, and every other one, of an unknown or a missing code too,
is discarded (R174); Stop and Park act by motion state as the addressed ones do (R69, R70). An
addressed request waits while the response queue is full, and a request command other than the one
the buffer's head names has no effect (R173; the second is the model's form, log 1). -/
def Obligations.BroadcastAndWaitingRequests : Prop :=
  (∀ (s : State) (r : Request) (rest : List Request),
     s.site.requests = r :: rest → r.dest = 0xFF →
     (requestOf r.payload ∉ [.stop, .park, .holdQueue, .setTimeAtPulse] →
       exec (requestOf r.payload) s = .next { s with site.requests := rest }) ∧
     (r.payload = [0x06] →
       exec .holdQueue s = .next { s with site.requests := rest, seq.mode := .hold }) ∧
     (∀ p, r.payload = 0x49 :: p → p.length = 8 →
       exec .setTimeAtPulse s =
         .next { s with site.requests := rest, time.load := some (beNat p) }) ∧
     (r.payload = [0x1A] → s.seq.motion = .idle →
       exec .stop s = .next { s with site.requests := rest }) ∧
     (r.payload = [0x19] → s.seq.motion = .idle →
       ∃ t : State, exec .park s = .next t ∧ t.seq.motion = .parking ∧
         t.planner.current = .park (s.parkPlan s.holdMotion) ∧
         t.site = { s.site with requests := rest }) ∧
     (∀ park : Bool, r.payload = [if park then 0x19 else 0x1A] →
       let run := exec (if park then .park else .stop) s
       let why : Reason := if park then .park else .stop
       let taken : State → State := fun t => { t with site.requests := rest }
       (∀ a, s.seq.active = some a → s.seq.motion.running = true →
         let halted := State.moved
           { (s.vacated a .withdrawn why none).shelfLeft why with
             seq.mode := .hold
             seq.sup.graceCount := none
             planner.current := .stop (s.stopPlan s.present) } .stopping
         run = .next (taken { halted with seq.parkPending := park || s.seq.parkPending })) ∧
       (park = true → s.seq.motion = .idle → run = .next (taken (State.moved
         { s with
           planner.current := .park (s.parkPlan s.holdMotion)
           freeIndex := s.freeIndex + 3
           seq.parkPending := false } .parking))) ∧
       (s.seq.motion = .stopping →
         run = .next (taken { s with seq.parkPending := park || s.seq.parkPending })) ∧
       (park = false → s.seq.motion = .parking → run = .next (taken (State.moved
         { s with
           planner.current := .stop (s.stopPlan s.present)
           seq.parkPending := false } .stopping))) ∧
       ((park = true ∧ s.seq.motion = .parking) ∨ s.seq.motion = .parked ∨
         s.seq.motion = .alarm → run = .next (taken s)))) ∧
  (∀ (s : State) (r : Request) (rest : List Request), s.site.requests = r :: rest →
     (r.dest ≠ 0xFF → 4 ≤ s.site.responses.length →
       exec (requestOf r.payload) s = .next s ∧ s.requestDue = none) ∧
     (∀ c : Instr, (requestCode c).isSome = true ∨ c = .unknownRequest →
       c ≠ requestOf r.payload → exec c s = .next s))

/-- The codes name the requests, every other code and an empty payload name none, and a request that
names none is answered UNKNOWN_REQUEST with its own code, or 0x00 for an empty payload (R173, R180).
-/
def Obligations.UnknownRequestsAreAnswered : Prop :=
  (∀ (c : Instr) (code : Byte) (p : List Byte), requestCode c = some code →
    requestOf (code :: p) = c) ∧
  (∀ (s : State) (r : Request) (rest : List Request), s.site.requests = r :: rest →
    r.dest ≠ 0xFF → s.site.responses.length < 4 →
    (∀ (c : Instr) (code : Byte), requestCode c = some code → r.payload.head? ≠ some code) →
    exec .unknownRequest s =
      .next (s.answered r rest (r.payload.headD 0) { status := .unknownRequest, result := [] }))

/-! ## Queue requests -/

/-- Submit Target applies its six checks in the order of R10, the first that fails decides the
status, and a refused request changes nothing. -/
def Obligations.SubmitTargetChecksInOrder : Prop :=
  ∀ (s : State) (r : Request) (rest : List Request) (p : List Byte), s.asks r rest 0x01 p →
    ∃ t reply, exec .submitTarget s = .next t ∧
      t.site.responses =
        s.site.responses ++ [{ dest := r.src, tag := r.tag, code := 0x01, reply }] ∧
      s.SubmitTargetAnswers p reply.status ∧
      (reply.status ≠ .ok → reply.result = [] ∧ t = s.answered r rest 0x01 reply)

/-- An admitted Submit Target places the NORMAL record that its parameters give at the tail or
behind after_id, opens an empty chain for each needed lane, answers the position and the count, and
changes nothing else, where it does not become the head of an IDLE mount (R9, R11). -/
def Obligations.SubmitTargetAdmitsRecord : Prop :=
  ∀ (s : State) (r : Request) (rest : List Request) (p : List Byte), s.asks r rest 0x01 p →
    s.SubmitTargetAnswers p .ok → s.seq.queue ≠ [] ∨ s.seq.motion ≠ .idle →
    let record := submittedRecord p .normal
    let queue := placeRecord s.seq.queue (submittedAfter p) record
    exec .submitTarget s = .next
      ((State.queued
        { s with chains := s.chains ++ record.neededLanes.map (fun x =>
            { owner := record.targetId, lane := x, segments := [], ending := none
              closed := false, refillArmed := true }) } queue).answered r rest 0x01
        (okReply (natBytes 1 (positionOf record.targetId (queue.map (·.targetId))) ++
          natBytes 1 queue.length)))

/-- A Submit Opportunity that passes its checks stands first in the queue with its seeded chains
outside the running states (where no activation test follows: the queue is held or the mount is not
IDLE); in a running state it is activated at once, and the running target goes onto the shelf (R13,
R14, R67). The plan's numbers are computed as logs 6 and 10 say, and log 41 says when a stretch of 0
leaves none. -/
def Obligations.SubmitOpportunityQueuesOrPreempts : Prop :=
  ∀ (s : State) (r : Request) (rest : List Request) (p : List Byte)
    (seeds : List (Lane × Segment)), s.asks r rest 0x02 p →
    natAt p 30 1 ≤ 3 → p.length = 31 + 29 * natAt p 30 1 → natAt p 2 1 < 8 →
    recordOf p .opportunity s.time.valid s.time.mount = some (submittedRecord p .opportunity) →
    seedLanes (submittedRecord p .opportunity) (seedsOf p) = some seeds →
    s.fixedRefusal (submittedRecord p .opportunity) = none →
    s.present? (natAt p 0 2) = false → s.seedRefusal seeds = none →
    let record := submittedRecord p .opportunity
    let chains := s.seededChains record seeds
    (s.seq.motion.running = false → s.seq.queue.length < 64 →
      s.seq.motion ≠ .idle ∨ s.seq.mode = .hold →
      exec .submitOpportunity s = .next
        ((State.queued { s with chains := s.chains ++ chains }
          (record :: s.seq.queue)).answered r rest 0x02 (okReply [0, 1]))) ∧
    (∀ a plan, s.seq.motion.running = true → s.seq.active = some a → s.seq.shelf.length < 3 →
      s.time.valid = true → startReached record s.time.mount = true →
      ({ s with chains := s.chains ++ chains } : State).preemptPlan record = some plan →
      ∃ t : State, exec .submitOpportunity s = .next (t.answered r rest 0x02 (okReply [1])) ∧
        t.site = { s.site with requests := rest } ∧
        t.seq.motion = .slewing ∧ t.planner.current = .slew plan ∧
        t.seq.active = some
          { record := { record with
              stats.activationTime := some s.time.mount
              stats.wrapK := some plan.wrapK
              stats.wrapShort := plan.wrapShort }
            ctx := .fresh record.dwell s.time.mount plan.wrapK } ∧
        t.seq.shelf =
          { record := s.leavingRecord a
            ctx := { a.ctx with guide := { a.ctx.guide with watch := none, lost := none } } } ::
              s.seq.shelf ∧
        t.chains = s.chains ++ chains ∧ t.seq.queue = s.seq.queue ∧
        t.seq.outcomes = s.seq.outcomes ∧ t.seq.mode = s.seq.mode ∧ t.time = s.time ∧
        t.cond = s.cond ∧ t.ports = s.ports)

/-- Withdraw Target takes the record out of the slot, off the shelf or out of the queue with the
outcome WITHDRAWN, reason REQUEST, and answers the place; the end-of-target rule follows for the
active one (R17, R20, R64). -/
def Obligations.WithdrawTargetLeavesItsPlace : Prop :=
  ∀ (s : State) (r : Request) (rest : List Request) (p : List Byte), s.asks r rest 0x03 p →
    p.length = 2 → natAt p 0 2 ≠ 0 →
    let id := natAt p 0 2
    (∀ a, s.seq.active = some a → a.record.targetId = id →
      ∃ t : State, exec .withdrawTarget s = .next (t.answered r rest 0x03 (okReply [1])) ∧
        ({ s with site.requests := rest } : State).ended t a .withdrawn .request) ∧
    (∀ e, s.active? id = none → s.shelved? id = some e →
      exec .withdrawTarget s = .next
        (({ s with
            seq.shelf := s.seq.shelf.filter (fun q => q.record.targetId != id)
            chains := s.chains.filter (fun c => c.owner != id)
            seq.outcomes := pushOutcome s.seq.outcomes
              { record := e.record, verdict := .withdrawn, reason := .request, axis := none
                time := s.time.mount, place := .shelved }
            rep := offerReport s.rep (.targetOutcome .withdrawn .request none .shelved)
              s.time.mount id } : State).answered r rest 0x03 (okReply [2]))) ∧
    (∀ q, s.active? id = none → s.shelved? id = none → s.queued? id = some q →
      headId s.seq.queue ≠ id ∨ s.seq.motion ≠ .idle →
      exec .withdrawTarget s = .next
        (({ s.queued (s.seq.queue.filter (fun q => q.targetId != id)) with
            chains := s.chains.filter (fun c => c.owner != id)
            seq.outcomes := pushOutcome s.seq.outcomes
              { record := q, verdict := .withdrawn, reason := .request, axis := none
                time := s.time.mount, place := .queued }
            rep := offerReport s.rep (.targetOutcome .withdrawn .request none .queued)
              s.time.mount id } : State).answered r rest 0x03 (okReply [0]))) ∧
    (s.present? id = false → exec .withdrawTarget s =
      .next (s.answered r rest 0x03 { status := .notFound, result := [] }))

/-- Flush Queue takes every queued record out, head first, each with the outcome WITHDRAWN, reason
FLUSH, and leaves the active slot, the shelf and the rest of the part alone (R19, R20). -/
def Obligations.FlushQueueEmptiesQueue : Prop :=
  ∀ (s : State) (r : Request) (rest : List Request), s.asks r rest 0x04 [] →
    ∃ t : State, exec .flushQueue s =
        .next (t.answered r rest 0x04 (okReply (natBytes 1 s.seq.queue.length))) ∧
      t.seq.queue = [] ∧
      t.seq.outcomes = (s.seq.queue.map (fun q : TargetRecord =>
        { record := q, verdict := .withdrawn, reason := .flush, axis := none
          time := s.time.mount, place := .queued })).foldl pushOutcome s.seq.outcomes ∧
      t.rep = s.seq.queue.foldl (fun u q =>
        offerReport u (.targetOutcome .withdrawn .flush none .queued) s.time.mount q.targetId)
          s.rep ∧
      t.chains = s.chains.filter (fun c => decide (c.owner ∉ s.seq.queue.map (·.targetId))) ∧
      t.seq.active = s.seq.active ∧ t.seq.shelf = s.seq.shelf ∧ t.seq.mode = s.seq.mode ∧
      t.seq.motion = s.seq.motion ∧ t.seq.hold = s.seq.hold ∧ t.seq.spell = s.seq.spell ∧
      t.seq.parkPending = s.seq.parkPending ∧ t.seq.sup = s.seq.sup ∧ t.time = s.time ∧
      t.planner = s.planner ∧ t.corr = s.corr ∧ t.guide = s.guide ∧ t.servo = s.servo ∧
      t.cond = s.cond ∧ t.ports = s.ports ∧ t.site = { s.site with requests := rest } ∧
      t.permit = s.permit

/-- Run Queue and Hold Queue set the queue mode and answer it; Run Queue changes nothing else where
no activation test can follow (R49). That a Run Queue in RUN runs no test is the model's reading
(log 28). -/
def Obligations.RunAndHoldSetQueueMode : Prop :=
  ∀ (s : State) (r : Request) (rest : List Request),
    (s.asks r rest 0x06 [] → exec .holdQueue s = .next
      (({ s with seq.mode := .hold } : State).answered r rest 0x06 (okReply [0]))) ∧
    (s.asks r rest 0x05 [] →
      s.seq.motion ≠ .idle ∨ s.seq.queue = [] ∨ s.time.valid = false ∨ s.seq.mode = .run →
      exec .runQueue s = .next
        (({ s with seq.mode := .run } : State).answered r rest 0x05 (okReply [1]))) ∧
    (s.asks r rest 0x05 [] → s.seq.mode = .hold → ∃ t : State, exec .runQueue s = .next t ∧
      t = (State.testActivation { s with site.requests := rest, seq.mode := .run }).respond r
        (okReply [1]))

/-- The reading requests answer what they read and change nothing: Read Target, Read Outcome and
Read Captures for a record they find, Read Chain, Read Terms, Read Offsets, Read Conditions and Peek
Time (R22, R23, R24, R37, R101, R109, R152, R162). Where the manual leaves the layout of a result
open, the bytes are the model's (log 15). -/
def Obligations.ReadingRequestsChangeNothing : Prop :=
  ∀ (s : State) (r : Request) (rest : List Request) (p : List Byte),
    (s.asks r rest 0x07 p → p.length = 2 → natAt p 0 2 ≠ 0 →
      (∀ a, s.active? (natAt p 0 2) = some a → exec .readTarget s = .next
        (s.answered r rest 0x07 (okReply
          (targetBytes .active 0 a.record (some a.ctx.dwellRemaining))))) ∧
      (∀ e, s.active? (natAt p 0 2) = none → s.shelved? (natAt p 0 2) = some e →
        exec .readTarget s = .next (s.answered r rest 0x07 (okReply
          (targetBytes .shelved
            (positionOf (natAt p 0 2) (s.seq.shelf.map (·.record.targetId))) e.record
            (some e.ctx.dwellRemaining))))) ∧
      (∀ q, s.active? (natAt p 0 2) = none → s.shelved? (natAt p 0 2) = none →
        s.queued? (natAt p 0 2) = some q → exec .readTarget s = .next
          (s.answered r rest 0x07 (okReply
            (targetBytes .queued (positionOf (natAt p 0 2) (s.seq.queue.map (·.targetId))) q
              none))))) ∧
    (∀ e, s.asks r rest 0x08 p → p.length = 2 → natAt p 0 2 ≠ 0 →
      s.outcome? (natAt p 0 2) = some e → exec .readOutcome s = .next
        (s.answered r rest 0x08 (okReply (outcomeBytes e s.seq.outcomes.length)))) ∧
    (s.asks r rest 0x09 p → p.length = 3 → natAt p 0 2 ≠ 0 → natAt p 2 1 ≤ 1 →
      (∀ a, s.active? (natAt p 0 2) = some a → exec .readCaptures s = .next
        (s.answered r rest 0x09 (okReply (capturesBytes 1 (natAt p 2 1) a.record)))) ∧
      (∀ e, s.active? (natAt p 0 2) = none → s.shelved? (natAt p 0 2) = some e →
        exec .readCaptures s = .next
          (s.answered r rest 0x09 (okReply (capturesBytes 2 (natAt p 2 1) e.record)))) ∧
      (∀ q, s.active? (natAt p 0 2) = none → s.shelved? (natAt p 0 2) = none →
        s.queued? (natAt p 0 2) = some q → exec .readCaptures s = .next
          (s.answered r rest 0x09 (okReply (capturesBytes 0 (natAt p 2 1) q)))) ∧
      (∀ e, s.present? (natAt p 0 2) = false → s.outcome? (natAt p 0 2) = some e →
        exec .readCaptures s = .next
          (s.answered r rest 0x09 (okReply (capturesBytes 3 (natAt p 2 1) e.record))))) ∧
    (∀ x c, s.asks r rest 0x13 p → p.length = 4 → natAt p 0 2 ≠ 0 → natAt p 3 1 ≤ 127 →
      laneOf (natAt p 2 1) = some x → s.namedChain (natAt p 0 2) x = .ok c →
      exec .readChain s =
        .next (s.answered r rest 0x13 (okReply (chainBytes c (natAt p 3 1))))) ∧
    (s.asks r rest 0x23 [0] → exec .readTerms s =
      .next (s.answered r rest 0x23 (okReply (s.termsBytes 0 s.corr.staged)))) ∧
    (s.asks r rest 0x23 [1] → exec .readTerms s =
      .next (s.answered r rest 0x23 (okReply (s.termsBytes 1 s.corr.active)))) ∧
    (∀ a, s.asks r rest 0x28 [] → s.seq.active = some a → exec .readOffsets s =
      .next (s.answered r rest 0x28 (okReply
        (natBytes 2 a.record.targetId ++ natBytes 1 a.ctx.stack.top ++
          stackBytes a.ctx.stack.top 0 a.ctx.stack.entries ++
          lanesBytes a.ctx.stack.effectiveAll ++ lanesBytes (a.ctx.applied.map wholeMas))))) ∧
    (s.asks r rest 0x3A [] → exec .readConditions s =
      .next (s.answered r rest 0x3A (okReply s.conditionsBytes))) ∧
    (s.asks r rest 0x4B [] → exec .peekTime s =
      .next (s.answered r rest 0x4B (okReply (timeBytes s.time))))

/-- Read Time answers the clock and clears pulse_new; Read Status answers its 28 bytes and clears
the four link-error counts, request_dropped and report_lost; neither changes anything else (R162,
R186). The layout of the result where the manual leaves it open is the model's (log 15). -/
def Obligations.ReadTimeAndStatusClearMarks : Prop :=
  ∀ (s : State) (r : Request) (rest : List Request),
    (s.asks r rest 0x4A [] → exec .readTime s = .next
      (({ s with time.pulseNew := false } : State).answered r rest 0x4A
        (okReply (timeBytes s.time)))) ∧
    (s.asks r rest 0x50 [] → s.statusBytes.length = 28 ∧ exec .readStatus s = .next
      (({ s with
          site.linkErrors := 0
          site.requestDropped := false
          rep.lost := false
          ports := ⟨{ s.ports.az with linkErrors := 0 }, { s.ports.el with linkErrors := 0 },
            { s.ports.rot with linkErrors := 0 }⟩ } : State).answered r rest 0x50
        (okReply s.statusBytes)))

/-- Adjust Dwell sets the dwell remaining of the active or a shelved target, or a queued record's
dwell, and at 0 completes an active or a shelved target; target_id 0, a value above 14,400,000 and a
queued value below 1,000 are refused BAD_PARAM, and a target in no place NOT_FOUND (R63). -/
def Obligations.AdjustDwellByPlace : Prop :=
  ∀ (s : State) (r : Request) (rest : List Request) (p : List Byte), s.asks r rest 0x0A p →
    p.length = 6 →
    let id := natAt p 0 2
    let value := natAt p 2 4
    (id = 0 ∨ 14400000 < value → exec .adjustDwell s =
      .next (s.answered r rest 0x0A { status := .badParam, result := [] })) ∧
    (id ≠ 0 → value ≤ 14400000 →
      (∀ a, s.seq.active = some a → a.record.targetId = id →
        (value ≠ 0 → exec .adjustDwell s = .next
          (({ s with seq.active := some { a with ctx.dwellRemaining := value * 1000 } }
            : State).answered r rest 0x0A (okReply [1]))) ∧
        (value = 0 → ∃ t : State, exec .adjustDwell s = .next (t.answered r rest 0x0A (okReply [1])) ∧
          ({ s with site.requests := rest } : State).ended t a .completed .none)) ∧
      (∀ e, s.active? id = none → s.shelved? id = some e →
        (value ≠ 0 → exec .adjustDwell s = .next
          (({ s with seq.shelf := s.seq.shelf.map (fun e =>
                if e.record.targetId = id then { e with ctx.dwellRemaining := value * 1000 }
                else e) } : State).answered r rest 0x0A (okReply [2]))) ∧
        (value = 0 → exec .adjustDwell s = .next
          (({ s with
              seq.shelf := s.seq.shelf.filter (fun q => q.record.targetId != id)
              chains := s.chains.filter (fun c => c.owner != id)
              seq.outcomes := pushOutcome s.seq.outcomes
                { record := e.record, verdict := .completed, reason := .none, axis := none
                  time := s.time.mount, place := .shelved }
              rep := offerReport s.rep (.targetOutcome .completed .none none .shelved)
                s.time.mount id } : State).answered r rest 0x0A (okReply [2])))) ∧
      (∀ q, s.active? id = none → s.shelved? id = none → s.queued? id = some q →
        (1000 ≤ value → exec .adjustDwell s = .next
          (({ s with seq.queue := s.seq.queue.map (fun q =>
                if q.targetId = id then { q with dwell := value } else q) }
            : State).answered r rest 0x0A (okReply [0]))) ∧
        (value < 1000 → exec .adjustDwell s =
          .next (s.answered r rest 0x0A { status := .badParam, result := [] }))) ∧
      (s.present? id = false → exec .adjustDwell s =
        .next (s.answered r rest 0x0A { status := .notFound, result := [] })))

/-! ## Chain requests -/

/-- An accepted Append Segments stores its segments at the chain's end: count rises, end_time and
the end state become the last segment's, refill_armed is set where the end lies a refill horizon
ahead, and nothing else changes where no activation test follows (R31, R32, R33). -/
def Obligations.AppendSegmentsStores : Prop :=
  ∀ (s : State) (r : Request) (rest : List Request) (p : List Byte) (x : Lane) (c : Chain)
    (last : Segment), s.asks r rest 0x10 p →
    laneOf (natAt p 2 1) = some x → p.length = 4 + 28 * natAt p 3 1 → 1 ≤ natAt p 3 1 →
    natAt p 3 1 ≤ 4 → natAt p 0 2 ≠ 0 → s.namedChain (natAt p 0 2) x = .ok c →
    let gs := appendedSegments p
    c.closed = false → gs.length + c.segments.length ≤ 128 → gs.length ≤ freeSlots s.chains →
    checkSegments s.planner.limits s.planner.axes c.lane c.ending 1 gs = none →
    gs.getLast? = some last →
    headId s.seq.queue ≠ natAt p 0 2 ∨ s.seq.motion ≠ .idle →
    let chains := s.chains.map (fun d =>
      if d.owner == natAt p 0 2 && d.lane == x then
        { d with
          segments := d.segments ++ gs
          ending := some
            { time := last.start + last.duration
              position := (segValue last (last.start + last.duration)).pos
              velocity := (segValue last (last.start + last.duration)).vel }
          refillArmed := d.refillArmed ||
            decide (s.time.mount + s.planner.globals.refillHorizon * 1000000 ≤
              last.start + last.duration) }
      else d)
    exec .appendSegments s = .next
      (({ s with chains } : State).answered r rest 0x10
        (okReply ([0] ++ natBytes 1 (c.segments.length + gs.length) ++
          natBytes 8 (last.start + last.duration) ++ natBytes 2 (freeSlots chains))))

/-- Close Chain sets the closed flag of a started chain and Truncate Chain cuts a chain at the start
of a remaining segment (R36); neither changes anything else. A chain not started is refused
NOT_READY (R34, R35, R36). -/
def Obligations.CloseAndTruncateChain : Prop :=
  ∀ (s : State) (r : Request) (rest : List Request) (p : List Byte) (x : Lane) (c : Chain),
    laneOf (natAt p 2 1) = some x → natAt p 0 2 ≠ 0 →
    s.namedChain (natAt p 0 2) x = .ok c →
    (∀ e, s.asks r rest 0x11 p → p.length = 3 → c.ending = some e →
      exec .closeChain s = .next
        (({ s with chains := s.chains.map (fun d =>
              if d.owner == natAt p 0 2 && d.lane == x then { d with closed := true } else d) }
          : State).answered r rest 0x11
          (okReply (natBytes 1 c.segments.length ++ natBytes 8 e.time)))) ∧
    (s.asks r rest 0x11 p → p.length = 3 → c.ending = none → exec .closeChain s =
      .next (s.answered r rest 0x11 { status := .notReady, result := [] })) ∧
    (s.asks r rest 0x12 p → p.length = 11 →
      let t := natAt p 3 8
      let freed := c.segments.filter (fun g => decide (t ≤ g.start))
      (∃ g ∈ c.segments, g.start = t) →
      (s.active? (natAt p 0 2) ≠ none → s.time.mount + 1000000 ≤ t) →
      exec .truncateChain s = .next
        (({ s with chains := s.chains.map (fun d =>
              if d.owner == natAt p 0 2 && d.lane == x then d.truncate t else d) }
          : State).answered r rest 0x12
          (okReply (natBytes 1 freed.length ++
            natBytes 1 (c.segments.length - freed.length) ++ natBytes 8 t))) ∧
      (c.truncate t).segments = c.segments.filter (fun g => decide (g.start < t)) ∧
      (c.truncate t).closed = false ∧ (c.truncate t).refillArmed = true ∧
      (∀ g, (c.truncate t).segments.getLast? = some g →
        (c.truncate t).ending = some
          { time := t, position := (segValue g (g.start + g.duration)).pos
            velocity := (segValue g (g.start + g.duration)).vel }) ∧
      (∀ g, (c.truncate t).segments = [] → c.segments.head? = some g →
        (c.truncate t).ending =
          some { time := t, position := 256 * g.c0, velocity := 256 * g.c1 }))

/-! ## Motion requests -/

/-- Unpark in PARKED, with its four checks met, sends RELEASE to each axis, fixes the hold position
at the measured angles, starts the encoder watches and enters IDLE, where the queue is held or
empty; with an open queue it may go on to SLEWING (R48, R50, R128). In any other state it is
WRONG_STATE. How a sample's age is tested is the model's (log 27). -/
def Obligations.UnparkEntersIdle : Prop :=
  ∀ (s : State) (r : Request) (rest : List Request), s.asks r rest 0x18 [] →
    (s.seq.motion ≠ .parked → exec .unpark s =
      .next (s.answered r rest 0x18 { status := .wrongState, result := [] })) ∧
    ∀ angle : Lane → Int, s.seq.motion = .parked → s.planner.axes ≠ none →
      s.planner.limits ≠ none → s.time.valid = true →
      (∀ x, ∃ l, s.servo.latest.get x = some l ∧ l.arrival ≤ s.time.mount ∧
        s.time.mount - l.arrival ≤ (s.axis x).watch ∧ l.measured = some (angle x)) →
      ∃ t : State, exec .unpark s = .next (t.answered r rest 0x18 (okReply [])) ∧
        t.site = { s.site with requests := rest } ∧
        (t.seq.motion = .idle ∨ t.seq.motion = .slewing) ∧
        (∀ x, t.seq.hold.get x = 256 * angle x ∧
          t.ports.get x =
            { s.ports.get x with control := some (releaseFrame (s.axis x).node) } ∧
          t.servo.watch.get x =
            some { restart := s.time.mount, interval := (s.axis x).watch }) ∧
        (s.seq.queue = [] ∨ s.seq.mode = .hold →
          t.seq.motion = .idle ∧ t.seq.queue = s.seq.queue ∧ t.seq.active = s.seq.active ∧
            t.planner.current = .none ∧ t.chains = s.chains ∧
            (s.corr.commitPending = false →
              t.corr = s.corr ∧
              t.rep = offerReport s.rep (.phaseChange .parked .idle) s.time.mount s.activeId)) ∧
        t.time = s.time ∧ t.cond = s.cond ∧ t.seq.mode = s.seq.mode ∧ t.guide = s.guide ∧
        t.servo.latest = s.servo.latest

/-- Clear Alarm in ALARM, with PERMIT high, both tables loaded and every axis's latest sample taken
since the alarm, free of FAULT and LIMIT_SWITCH and within the hard limits, empties the alarm
record, sends RELEASE and enters IDLE at the measured angles, from where an open queue may take it
on to SLEWING; else it is refused NOT_READY naming the first requirement that fails, PERMIT, AXES,
LIMITS, and then for AZ, EL, ROT NO_SAMPLE, DRIVE_FAULT, LIMIT_SWITCH and HARD_LIMIT with the axis
(R73, R156; that the last four are numbered 4 to 7 is the model's, log 35). -/
def Obligations.ClearAlarmEntersIdle : Prop :=
  ∀ (s : State) (r : Request) (rest : List Request), s.asks r rest 0x1B [] →
    let fails : Lane → Byte → Prop := fun x n =>
      (n = 4 ∧ ∀ l, s.servo.latest.get x = some l → l.seenSinceAlarm = false) ∨
      ∃ l, s.servo.latest.get x = some l ∧ l.seenSinceAlarm = true ∧
        ((n = 5 ∧ l.fault = true) ∨
          (n = 6 ∧ l.fault = false ∧ l.limitSwitch = true) ∨
          (n = 7 ∧ l.fault = false ∧ l.limitSwitch = false ∧
            ∀ m limits, l.measured = some m → s.planner.limits = some limits →
              m < (limits.get x).hardMin ∨ (limits.get x).hardMax < m))
    let refused : List Byte → Prop := fun result => exec .clearAlarm s =
      .next (s.answered r rest 0x1B { status := .notReady, result })
    (s.seq.motion ≠ .alarm → exec .clearAlarm s =
      .next (s.answered r rest 0x1B { status := .wrongState, result := [] })) ∧
    (s.seq.motion = .alarm → s.permit = false → refused [1]) ∧
    (s.seq.motion = .alarm → s.permit = true → s.planner.axes = none → refused [2]) ∧
    (s.seq.motion = .alarm → s.permit = true → s.planner.axes ≠ none →
      s.planner.limits = none → refused [3]) ∧
    (s.seq.motion = .alarm → s.permit = true → s.planner.axes ≠ none →
      s.planner.limits ≠ none → ∀ x n, fails x n →
      (∀ y m, laneCode y < laneCode x → ¬fails y m) →
      refused (n :: natBytes 1 (laneCode x))) ∧
    ∀ (angle : Lane → Int) (limits : Lanes AxisLimits), s.seq.motion = .alarm →
      s.permit = true → s.planner.axes ≠ none → s.planner.limits = some limits →
      (∀ x, (limits.get x).hardMin ≤ angle x ∧ angle x ≤ (limits.get x).hardMax ∧
        ∃ l, s.servo.latest.get x = some l ∧ l.seenSinceAlarm = true ∧ l.fault = false ∧
          l.limitSwitch = false ∧ l.measured = some (angle x)) →
      ∃ t : State, exec .clearAlarm s = .next (t.answered r rest 0x1B (okReply [])) ∧
        t.site = { s.site with requests := rest } ∧
        (t.seq.motion = .idle ∨ t.seq.motion = .slewing) ∧
        t.cond = { mask := s.cond.mask, first := none, causeSet := [] } ∧
        (∀ x, t.seq.hold.get x = 256 * angle x ∧
          t.ports.get x =
            { s.ports.get x with control := some (releaseFrame (s.axis x).node) } ∧
          t.servo.watch.get x =
            some { restart := s.time.mount, interval := (s.axis x).watch }) ∧
        (s.seq.queue = [] ∨ s.seq.mode = .hold →
          t.seq.motion = .idle ∧ t.seq.queue = s.seq.queue ∧ t.seq.active = s.seq.active ∧
            t.planner.current = .none ∧ t.chains = s.chains ∧
            (s.corr.commitPending = false → t.corr = s.corr ∧
              t.rep = offerReport s.rep (.phaseChange .alarm .idle) s.time.mount s.activeId)) ∧
        t.time = s.time ∧ t.seq.mode = s.seq.mode ∧ t.servo.latest = s.servo.latest ∧
        t.permit = s.permit ∧ t.guide = s.guide

/-- Stop and Park, by motion state (R69, R70): in a running state the active target leaves WITHDRAWN
and then the shelf ABANDONED from the top down, each with its outcome entry and report, the queue is
held, a grace count is cancelled and the stop profile begins, with park pending set by Park; the
other states as the rules' tables give them (R76, R84, R91, R92). The profiles' numbers are computed
as logs 10 and 12 say. -/
def Obligations.StopAndParkByState : Prop :=
  ∀ (s : State) (r : Request) (rest : List Request) (park : Bool),
    s.asks r rest (if park then 0x19 else 0x1A) [] →
    let run := exec (if park then .park else .stop) s
    let code : Byte := if park then 0x19 else 0x1A
    let why : Reason := if park then .park else .stop
    (∀ a, s.seq.active = some a → s.seq.motion.running = true →
      let halted := State.moved
        { (s.vacated a .withdrawn why none).shelfLeft why with
          seq.mode := .hold
          seq.sup.graceCount := none
          planner.current := .stop (s.stopPlan s.present) } .stopping
      run = .next (({ halted with seq.parkPending := park || s.seq.parkPending } : State).answered
        r rest code (okReply [6])) ∧
      halted.seq.outcomes = (leaving (s.seq.shelf.map (·.record)) .abandoned why .shelved
        s.time.mount).foldl pushOutcome (pushOutcome s.seq.outcomes
          { record := s.leavingRecord a, verdict := .withdrawn, reason := why, axis := none
            time := s.time.mount, place := .active })) ∧
    (park = true → s.seq.motion = .idle → run = .next ((State.moved
      { s with
        planner.current := .park (s.parkPlan s.holdMotion)
        freeIndex := s.freeIndex + 3
        seq.parkPending := false } .parking).answered r rest code (okReply [7]))) ∧
    (park = true → s.seq.motion = .stopping → run = .next
      (({ s with seq.parkPending := true } : State).answered r rest code (okReply [6]))) ∧
    (park = true → s.seq.motion = .parking → run = .next (s.answered r rest code (okReply [7]))) ∧
    (park = true → s.seq.motion = .parked → run = .next (s.answered r rest code (okReply [0]))) ∧
    (park = false → s.seq.motion = .parking → run = .next ((State.moved
      { s with
        planner.current := .stop (s.stopPlan s.present)
        seq.parkPending := false } .stopping).answered r rest code (okReply [6]))) ∧
    (park = false → s.seq.motion = .idle → run = .next (s.answered r rest code (okReply [1]))) ∧
    (park = false → s.seq.motion = .stopping →
      run = .next (s.answered r rest code (okReply [6]))) ∧
    (s.seq.motion = .alarm ∨ (park = false ∧ s.seq.motion = .parked) → run =
      .next (s.answered r rest code { status := .wrongState, result := [] }))

/-! ## Correction requests -/

/-- Write Term appends a term to the staged table and Delete Term removes one; the active table and
everything else stay (R99, R100). Commit Terms copies the staged table over the active one at once,
with a COMMIT_TAKEN report, outside SETTLING, TRACKING and DEGRADED; in those it sets commit-pending
and answers PENDING (R102). Each refuses what its checks name in their order, and a broadcast one is
discarded. -/
def Obligations.TermTableRequests : Prop :=
  (∀ (s : State) (r : Request) (rest : List Request) (p : List Byte),
     let kind := natAt p 0 1
     let n := natAt p 1 1
     let phase := natAt p 2 1
     let harmonic := kind = 7 ∨ kind = 8
     let fits := kind ≤ 9 ∧ (harmonic → 1 ≤ n ∧ n ≤ 8 ∧ (phase = 1 ∨ phase = 2)) ∧
       (¬harmonic → n = 0 ∧ phase = 0)
     let staged := ∃ t ∈ s.corr.staged, t.kind = kind ∧ t.n = n ∧ t.phase = phase
     (s.asks r rest 0x20 p → p.length = 7 → fits → (intAt p 3 4).natAbs ≤ 3600000 →
       (¬staged → s.corr.staged.length < 24 → exec .writeTerm s = .next
         (({ s with corr.staged := s.corr.staged ++ [{ kind, n, phase, c := intAt p 3 4 }] }
           : State).answered r rest 0x20 (okReply (natBytes 1 (s.corr.staged.length + 1))))) ∧
       (staged → exec .writeTerm s =
         .next (s.answered r rest 0x20 { status := .duplicateTerm, result := [] })) ∧
       (¬staged → 24 ≤ s.corr.staged.length → exec .writeTerm s =
         .next (s.answered r rest 0x20 { status := .tableFull, result := [] }))) ∧
     (s.asks r rest 0x20 p → p.length ≠ 7 ∨ ¬fits ∨ 3600000 < (intAt p 3 4).natAbs →
       exec .writeTerm s =
         .next (s.answered r rest 0x20 { status := .badParam, result := [] })) ∧
     (s.asks r rest 0x21 p → p.length ≠ 3 ∨ ¬fits → exec .deleteTerm s =
       .next (s.answered r rest 0x21 { status := .badParam, result := [] })) ∧
     (s.asks r rest 0x21 p → p.length = 3 → fits →
       let left := s.corr.staged.filter (fun t =>
         decide (¬(t.kind = kind ∧ t.n = n ∧ t.phase = phase)))
       (staged → exec .deleteTerm s = .next
         (({ s with corr.staged := left } : State).answered r rest 0x21
           (okReply (natBytes 1 left.length)))) ∧
       (¬staged → exec .deleteTerm s =
         .next (s.answered r rest 0x21 { status := .notFound, result := [] })))) ∧
  (∀ (s : State) (r : Request) (rest : List Request) (p : List Byte), s.asks r rest 0x22 p →
     p ≠ [] → exec .commitTerms s =
       .next (s.answered r rest 0x22 { status := .badParam, result := [] })) ∧
  (∀ (s : State) (r : Request) (rest : List Request), s.site.requests = r :: rest →
     r.dest = 0xFF → ∀ c ∈ [Instr.writeTerm, .deleteTerm, .commitTerms],
       requestOf r.payload = c → exec c s = .next { s with site.requests := rest }) ∧
  (∀ (s : State) (r : Request) (rest : List Request), s.asks r rest 0x22 [] →
     (s.seq.motion ∉ [.settling, .tracking, .degraded] → exec .commitTerms s = .next
       (({ s with
           corr.active := s.corr.staged
           corr.commitPending := false
           rep := offerReport s.rep (.commitTaken s.corr.staged.length false) s.time.mount
             s.activeId } : State).answered r rest 0x22 (okReply [0]))) ∧
     (s.seq.motion ∈ [.settling, .tracking, .degraded] → exec .commitTerms s = .next
       (({ s with corr.commitPending := true } : State).answered r rest 0x22 (okReply [1]))))

/-- When Push Offset passes its checks, the entry above the top receives the request's values, with
0 on the lanes outside the set, and the top rises by one; the response carries the new top and the
new effective offset, and a push of zeros raises the top and leaves the effective offset (R107);
what a changed effective offset does is R57's. -/
def Obligations.PushOffsetFillsNextEntry : Prop :=
  ∀ (s : State) (r : Request) (rest : List Request) (p : List Byte) (a : Running),
    s.asks r rest 0x24 p → p.length = 13 → 1 ≤ natAt p 0 1 → natAt p 0 1 ≤ 7 →
    s.seq.active = some a → a.ctx.stack.top < 8 → a.ctx.stack.entries.length = 8 →
    let value : Lane → Int := fun x =>
      if (natAt p 0 1).testBit (laneCode x) then intAt p (1 + 4 * laneCode x) 4 else 0
    let entries := a.ctx.stack.entries.take a.ctx.stack.top ++ [Lanes.of value] ++
      a.ctx.stack.entries.drop (a.ctx.stack.top + 1)
    let stack : OffsetStack := { entries, top := a.ctx.stack.top + 1 }
    (∀ x, stack.effective x = a.ctx.stack.effective x + value x) ∧
    ((∀ x, (stack.effective x).natAbs ≤ 3600000) → exec .pushOffset s = .next
      ((s.stackTo a stack).answered r rest 0x24
        (okReply (natBytes 1 stack.top ++ lanesBytes (.of stack.effective))))) ∧
    ((∃ x, 3600000 < (stack.effective x).natAbs) → exec .pushOffset s =
      .next (s.answered r rest 0x24 { status := .offsetRange, result := [] }))

/-- When Pop Offset passes its checks the top falls by one and every entry keeps its values, and
when Replace Top Offset does, the top entry takes the request's value on each lane in the set and
keeps its own elsewhere; each answers the entry and the new effective offset, Pop the new top too
(R108). Clear Offsets makes every entry EMPTY with its values kept, so the effective offset is 0,
and answers how many were VALID (R109). Every offset request is refused NO_TARGET with the slot
empty (R106). -/
def Obligations.PopReplaceAndClearOffsets : Prop :=
  (∀ (s : State) (r : Request) (rest : List Request) (p : List Byte) (a : Running)
     (below : List (Lanes Int)) (entry : Lanes Int) (above : List (Lanes Int)),
     s.seq.active = some a → a.ctx.stack.entries = below ++ entry :: above →
     a.ctx.stack.top = below.length + 1 →
     (s.asks r rest 0x25 [] →
       let stack : OffsetStack := { a.ctx.stack with top := below.length }
       exec .popOffset s = .next ((s.stackTo a stack).answered r rest 0x25
         (okReply (lanesBytes entry ++ natBytes 1 below.length ++
           lanesBytes (.of stack.effective))))) ∧
     (s.asks r rest 0x26 p → p.length = 13 → 1 ≤ natAt p 0 1 → natAt p 0 1 ≤ 7 →
       let new : Lanes Int := .of (fun x =>
         if (natAt p 0 1).testBit (laneCode x) then intAt p (1 + 4 * laneCode x) 4
         else entry.get x)
       let stack : OffsetStack := { a.ctx.stack with entries := below ++ new :: above }
       ((∀ x, (stack.effective x).natAbs ≤ 3600000) → exec .replaceTopOffset s = .next
         ((s.stackTo a stack).answered r rest 0x26
           (okReply (lanesBytes new ++ lanesBytes (.of stack.effective))))) ∧
       ((∃ x, 3600000 < (stack.effective x).natAbs) → exec .replaceTopOffset s =
         .next (s.answered r rest 0x26 { status := .offsetRange, result := [] })))) ∧
  (∀ (s : State) (r : Request) (rest : List Request),
     (∀ a, s.asks r rest 0x27 [] → s.seq.active = some a →
       exec .clearOffsets s = .next
         ((s.stackTo a { a.ctx.stack with top := 0 }).answered r rest 0x27
           (okReply (natBytes 1 a.ctx.stack.top))) ∧
       ∀ x, OffsetStack.effective { a.ctx.stack with top := 0 } x = 0) ∧
     (s.seq.active = none → ∀ c ∈ [Instr.pushOffset, .popOffset, .replaceTopOffset,
         .clearOffsets, .readOffsets],
       ∀ code p, requestCode c = some code → s.asks r rest code p →
         p.length = (if c = .pushOffset ∨ c = .replaceTopOffset then 13 else 0) →
         (c = .pushOffset ∨ c = .replaceTopOffset → 1 ≤ natAt p 0 1 ∧ natAt p 0 1 ≤ 7) →
         exec c s = .next (s.answered r rest code { status := .noTarget, result := [] })))

/-- Push Offset on a full stack, and Pop or Replace Top Offset on an empty one, are refused
STACK_FAULT with the indicator recorded and the OFFSET_STACK flag set, reported where it was clear;
with the condition masked nothing else changes, and unmasked the target leaves FAULTED (R106, R110,
R148). -/
def Obligations.StackFaultRaisesOffsetStack : Prop :=
  ∀ (s : State) (r : Request) (rest : List Request) (p : List Byte) (a : Running) (c : Instr)
    (code : Byte), s.seq.active = some a → requestCode c = some code → s.asks r rest code p →
    (c = .pushOffset ∧ 8 ≤ a.ctx.stack.top ∧ p.length = 13) ∨
      (c = .popOffset ∧ a.ctx.stack.top = 0 ∧ p = []) ∨
      (c = .replaceTopOffset ∧ a.ctx.stack.top = 0 ∧ p.length = 13) →
    (c ≠ .popOffset → 1 ≤ natAt p 0 1 ∧ natAt p 0 1 ≤ 7) →
    let i : Indicator := if c = .pushOffset then .over else .under
    let b : Running := { a with
      ctx.indicator := some i, ctx.flags := a.ctx.flags ||| 0x20 }
    let u : State := { s with
      site.requests := rest
      seq.active := some b
      rep := if a.ctx.flags.getLsbD 5 then s.rep else
        offerReport s.rep (.conditionRaised .offsetStack (s.cond.mask.getLsbD 5)
          (if c = .pushOffset then 1 else 2) 0) s.time.mount a.record.targetId }
    (s.cond.mask.getLsbD 5 = true → exec c s =
      .next (u.answered r rest code { status := .stackFault, result := [] })) ∧
    (s.cond.mask.getLsbD 5 = false → ∃ t : State,
      exec c s = .next (t.answered r rest code { status := .stackFault, result := [] }) ∧
      u.ended t b .faulted (.condition .offsetStack))

/-! ## Guiding -/

/-- Configure Guide replaces the configuration as a whole and changes nothing of a running guide
context (R133); Start Guiding clears the guide hold and moves OFF to ACQUIRING with a watch of three
times the guide watch (R138, R140); Stop Guiding sets the hold, stops both counts and moves the
state to OFF, clearing the accumulator where asked (R141). The layout of Configure Guide's result is
the model's (log 15). -/
def Obligations.GuideRequestsMoveGuideState : Prop :=
  ∀ (s : State) (r : Request) (rest : List Request) (p : List Byte),
    (∀ g, s.asks r rest 0x30 p → guideConfigOf p s.site.address = some g →
      exec .configureGuide s = .next (({ s with guide := some g } : State).answered r rest 0x30
        (okReply (match s.seq.active with
          | some a => guideCode a.ctx.guide.state ::
            (intBytes 4 (wholeMas a.ctx.guide.accAz) ++ intBytes 4 (wholeMas a.ctx.guide.accEl))
          | none => [0, 0])))) ∧
    (∀ a g, s.asks r rest 0x31 [] → s.seq.active = some a → s.seq.motion ≠ .slewing →
      s.guide = some g →
      let acquiring : GuideContext := { a.ctx.guide with
        hold := false, state := .acquiring, lastSeq := none
        watch := some { elapsed := 0, length := 3 * g.watch * 1000000 } }
      let acc := intBytes 4 (wholeMas a.ctx.guide.accAz) ++
        intBytes 4 (wholeMas a.ctx.guide.accEl)
      (a.ctx.guide.state = .off → exec .startGuiding s = .next
        (({ s with
            seq.active := some { a with ctx.guide := acquiring }
            rep := offerReport s.rep (.guideState .off .acquiring .start
              (wholeMas a.ctx.guide.accAz) (wholeMas a.ctx.guide.accEl) none) s.time.mount
              a.record.targetId } : State).answered r rest 0x31 (okReply (1 :: acc)))) ∧
      (a.ctx.guide.state ≠ .off → exec .startGuiding s = .next
        (({ s with seq.active := some { a with ctx.guide.hold := false } } : State).answered
          r rest 0x31 (okReply (guideCode a.ctx.guide.state :: acc))))) ∧
    (∀ a, s.asks r rest 0x32 p → p.length = 1 → natAt p 0 1 ≤ 1 → s.seq.active = some a →
      let az := if natAt p 0 1 = 1 then 0 else a.ctx.guide.accAz
      let el := if natAt p 0 1 = 1 then 0 else a.ctx.guide.accEl
      exec .stopGuiding s = .next
        (({ s with
            seq.active := some { a with ctx.guide := { a.ctx.guide with
              state := .off, hold := true, watch := none, lost := none, accAz := az
              accEl := el } }
            rep := if a.ctx.guide.state = .off then s.rep else
              offerReport s.rep (.guideState a.ctx.guide.state .off .stop (wholeMas az)
                (wholeMas el) a.ctx.guide.lastSeq) s.time.mount a.record.targetId }
          : State).answered r rest 0x32
          (okReply (0 :: (intBytes 4 (wholeMas az) ++ intBytes 4 (wholeMas el))))))

/-- A GUIDE frame that passes the tests of R135: a poor one records its sequence only; a good one
whose steps lie within clamp and limit adds both steps and locks; with a masked rejection the
accumulator takes the clipped steps; with an unmasked one no step is added, the state is LOST and
the target leaves FAULTED (R135 to R138, R148). -/
def Obligations.GuideFrameStepsAccumulator : Prop :=
  ∀ (s : State) (f : Frame) (a : Running) (g : GuideConfig) (v : GuideFields),
    s.site.rx = .hunt → f.dest = s.site.address → f.kind = 0x18 →
    guideOf f.payload = some v → s.seq.active = some a → s.guide = some g →
    f.src = g.guider → v.targetId = a.record.targetId →
    s.seq.motion = .tracking ∨ s.seq.motion = .degraded → a.ctx.guide.state ≠ .off →
    newerSequence a.ctx.guide.lastSeq v.sequence = true →
    let azStep := (g.azGain : Int) * v.azCorr
    let elStep := (g.elGain : Int) * v.elCorr
    let azBad := decide (256 * g.azClamp < azStep.natAbs) ||
      decide (256 * g.azLimit < (a.ctx.guide.accAz + azStep).natAbs)
    let elBad := decide (256 * g.elClamp < elStep.natAbs) ||
      decide (256 * g.elLimit < (a.ctx.guide.accEl + elStep).natAbs)
    let clip : Int → Int → Nat → Nat → Int := fun acc step clamp limit =>
      clampInt (-(256 * limit)) (256 * limit)
        (acc + clampInt (-(256 * clamp)) (256 * clamp) step)
    let locked : Int → Int → GuideContext := fun az el => { a.ctx.guide with
      state := .locked, accAz := az, accEl := el, lastSeq := some v.sequence
      watch := some { elapsed := 0, length := g.watch * 1000000 }, lost := none }
    (v.quality < g.qualityMin → exec (.guideFrame f) s = .next { s with
      site.rx := .hunt
      seq.active := some { a with ctx.guide.lastSeq := some v.sequence } }) ∧
    (g.qualityMin ≤ v.quality → azBad = false → elBad = false →
      let az := a.ctx.guide.accAz + azStep
      let el := a.ctx.guide.accEl + elStep
      exec (.guideFrame f) s = .next { s with
        site.rx := .hunt
        seq.active := some { a with ctx.guide := locked az el }
        rep := if a.ctx.guide.state = .locked then s.rep else
          offerReport s.rep (.guideState a.ctx.guide.state .locked .frame (wholeMas az)
            (wholeMas el) (some v.sequence)) s.time.mount a.record.targetId }) ∧
    (g.qualityMin ≤ v.quality → (azBad || elBad) = true → s.cond.mask.getLsbD 4 = true →
      let az := if azBad then clip a.ctx.guide.accAz azStep g.azClamp g.azLimit
        else a.ctx.guide.accAz + azStep
      let el := if elBad then clip a.ctx.guide.accEl elStep g.elClamp g.elLimit
        else a.ctx.guide.accEl + elStep
      let raised := if a.ctx.flags.getLsbD 4 then s.rep else
        offerReport s.rep (.conditionRaised .guideReject true
          (laneSetByte ⟨azBad, elBad, false⟩) 0) s.time.mount a.record.targetId
      exec (.guideFrame f) s = .next { s with
        site.rx := .hunt
        seq.active := some { a with
          ctx.flags := a.ctx.flags ||| 0x10, ctx.guide := locked az el }
        rep := if a.ctx.guide.state = .locked then raised else
          offerReport raised (.guideState a.ctx.guide.state .locked .frame (wholeMas az)
            (wholeMas el) (some v.sequence)) s.time.mount a.record.targetId }) ∧
    (g.qualityMin ≤ v.quality → (azBad || elBad) = true → s.cond.mask.getLsbD 4 = false →
      let heard : Running := { a with ctx.guide.lastSeq := some v.sequence }
      let flagged := s.flagged heard .guideReject (laneSetByte ⟨azBad, elBad, false⟩) 0
      let b : Running := { heard with
        ctx.flags := a.ctx.flags ||| 0x10
        ctx.guide := if a.ctx.guide.state = .lost then heard.ctx.guide else
          { heard.ctx.guide with
            state := .lost
            watch := none
            lost := if a.record.guideMode = .required ∧ g.lostLimit ≠ 0 then
                some { elapsed := 0, length := g.lostLimit * 1000000 }
              else none } }
      let u : State := { flagged with
        seq.active := some b
        rep := if a.ctx.guide.state = .lost then flagged.rep else
          offerReport flagged.rep (.guideState a.ctx.guide.state .lost .reject
            (wholeMas a.ctx.guide.accAz) (wholeMas a.ctx.guide.accEl) (some v.sequence))
            s.time.mount a.record.targetId }
      ∃ t : State, exec (.guideFrame f) s = .next t ∧
        u.ended t b .faulted (.condition .guideReject))

/-- A GUIDE frame that fails a test of R135 changes nothing but that it was received: another
length, source, target or motion state, no configuration, an empty slot, guide state OFF or a stale
sequence. -/
def Obligations.UnfitGuideFramesAreDiscarded : Prop :=
  ∀ (s : State) (f : Frame), s.site.rx = .hunt → f.payload.length ≤ 240 →
    f.dest = s.site.address → f.kind = 0x18 →
    f.payload.length ≠ 13 ∨ s.guide = none ∨ s.seq.active = none ∨
      (s.seq.motion ≠ .tracking ∧ s.seq.motion ≠ .degraded) ∨
      (∃ g, s.guide = some g ∧ f.src ≠ g.guider) ∨
      (∃ a, s.seq.active = some a ∧ (natAt f.payload 0 2 ≠ a.record.targetId ∨
        a.ctx.guide.state = .off ∨
        ∃ last, a.ctx.guide.lastSeq = some last ∧
          ((natAt f.payload 2 2 + 65536 - last) % 65536 = 0 ∨
            32768 ≤ (natAt f.payload 2 2 + 65536 - last) % 65536))) →
    exec (.guideFrame f) s = .next { s with site.rx := .hunt }

/-- Guide watch expiry moves ACQUIRING or LOCKED to LOST with its report and starts the lost count
of a REQUIRED target; the lost limit ends such a target FAULTED GUIDE_LOST (R138, R142); before
either is due nothing happens (log 2). -/
def Obligations.GuideTimersLoseTarget : Prop :=
  ∀ (s : State) (a : Running), s.seq.active = some a →
    s.seq.motion = .tracking ∨ s.seq.motion = .degraded →
    (∀ g w, a.ctx.guide.state = .acquiring ∨ a.ctx.guide.state = .locked →
      a.ctx.guide.watch = some w → s.guide = some g →
      (w.length ≤ w.elapsed → exec .guideWatchExpiry s = .next { s with
        seq.active := some { a with ctx.guide := { a.ctx.guide with
          state := .lost
          watch := none
          lost := if a.record.guideMode = .required ∧ g.lostLimit ≠ 0 then
              some { elapsed := 0, length := g.lostLimit * 1000000 }
            else none } }
        rep := offerReport s.rep (.guideState a.ctx.guide.state .lost
          (if a.ctx.guide.state = .acquiring then .acquireTimeout else .watch)
          (wholeMas a.ctx.guide.accAz) (wholeMas a.ctx.guide.accEl) a.ctx.guide.lastSeq)
          s.time.mount a.record.targetId }) ∧
      (w.elapsed < w.length → exec .guideWatchExpiry s = .next s)) ∧
    (∀ n, a.ctx.guide.state = .lost → a.ctx.guide.lost = some n →
      (n.length ≤ n.elapsed → ∃ t : State, exec .guideLost s = .next t ∧ s.ended t a .faulted .guideLost) ∧
      (n.elapsed < n.length → exec .guideLost s = .next s))

/-! ## Conditions -/

/-- Set Masks replaces the mask word and takes no fault (R146); Clear Conditions clears the named
flags of the active context, and the indicator with OFFSET_STACK (R151); neither changes anything
else. -/
def Obligations.MasksAndFlagsAreReplaced : Prop :=
  ∀ (s : State) (r : Request) (rest : List Request) (b : Byte), b.getLsbD 7 = false →
    (s.asks r rest 0x38 [b] → exec .setMasks s = .next
      (({ s with cond.mask := b } : State).answered r rest 0x38
        (okReply [b, pendingSet s.flags b]))) ∧
    (∀ a, s.asks r rest 0x39 [b] → s.seq.active = some a → exec .clearConditions s = .next
      (({ s with seq.active := some { a with
            ctx.flags := a.ctx.flags &&& ~~~b
            ctx.indicator := if b.getLsbD 5 then none else a.ctx.indicator } }
        : State).answered r rest 0x39
        (okReply (natBytes 2 a.record.targetId ++ [a.ctx.flags &&& ~~~b])))) ∧
    (s.asks r rest 0x39 [b] → s.seq.active = none → exec .clearConditions s =
      .next (s.answered r rest 0x39 { status := .noTarget, result := [] }))

/-! ## Setup and time -/

/-- Load Axes and Load Limits replace their tables in PARKED, IDLE and ALARM, where the values pass
(R79, R83); Load Axes starts the telemetry counts again (R127). In the moving states they are
refused WRONG_STATE. -/
def Obligations.LoadsReplaceTables : Prop :=
  ∀ (s : State) (r : Request) (rest : List Request) (p : List Byte),
    (∀ axes g, s.asks r rest 0x40 p → p.length = 161 →
      s.seq.motion ∈ [.parked, .idle, .alarm] → axisTableOf p = some (axes, g) →
      (∀ l, s.planner.limits = some l → ∀ x, (l.get x).softMin ≤ (axes.get x).parkAngle ∧
        (axes.get x).parkAngle ≤ (l.get x).softMax) →
      exec .loadAxes s = .next
        (({ s with
            planner.axes := some axes
            planner.globals := g
            servo.telemetryCount := ⟨0, 0, 0⟩ } : State).answered r rest 0x40 (okReply []))) ∧
    (∀ l : Lanes AxisLimits, s.asks r rest 0x41 p → p.length = 48 →
      s.planner.limitsLocked = false → s.seq.motion ∈ [.parked, .idle, .alarm] →
      (∀ x, l.get x =
        { hardMin := intAt p (16 * laneCode x) 4, softMin := intAt p (16 * laneCode x + 4) 4
          softMax := intAt p (16 * laneCode x + 8) 4
          hardMax := intAt p (16 * laneCode x + 12) 4 }) →
      (∀ x, (l.get x).hardMin < (l.get x).softMin ∧ (l.get x).softMin < (l.get x).softMax ∧
        (l.get x).softMax < (l.get x).hardMax ∧
        -(if x = .az then 972000000 else 1296000000) ≤ (l.get x).hardMin ∧
        (l.get x).hardMax ≤ (if x = .az then 972000000 else 1296000000)) →
      (∀ axes, s.planner.axes = some axes → ∀ x,
        (l.get x).softMin ≤ (axes.get x).parkAngle ∧
          (axes.get x).parkAngle ≤ (l.get x).softMax) →
      (s.seq.motion = .idle → ∀ x, 256 * (l.get x).softMin ≤ s.seq.hold.get x ∧
        s.seq.hold.get x ≤ 256 * (l.get x).softMax) →
      exec .loadLimits s = .next
        (({ s with planner.limits := some l } : State).answered r rest 0x41 (okReply []))) ∧
    (s.seq.motion ∉ [.parked, .idle, .alarm] → s.planner.limitsLocked = false →
      (s.asks r rest 0x40 p → p.length = 161 → exec .loadAxes s =
        .next (s.answered r rest 0x40 { status := .wrongState, result := [] })) ∧
      (s.asks r rest 0x41 p → p.length = 48 → exec .loadLimits s =
        .next (s.answered r rest 0x41 { status := .wrongState, result := [] })))

/-- Lock Limits (R80): parameters are refused BAD_PARAM, no loaded table NOT_READY; else the lock is
set and nothing else changes. While it is set, a Load Limits of its own length is refused LOCKED in
every state; a pin reset clears the lock, a soft reset keeps it, and a broadcast Lock Limits is
discarded. -/
def Obligations.LockLimitsLocks : Prop :=
  ∀ (s : State) (r : Request) (rest : List Request) (p : List Byte),
    (s.asks r rest 0x42 p → p ≠ [] → exec .lockLimits s =
      .next (s.answered r rest 0x42 { status := .badParam, result := [] })) ∧
    (s.asks r rest 0x42 [] → s.planner.limits = none → exec .lockLimits s =
      .next (s.answered r rest 0x42 { status := .notReady, result := [] })) ∧
    (s.asks r rest 0x42 [] → s.planner.limits ≠ none → exec .lockLimits s = .next
      (({ s with planner.limitsLocked := true } : State).answered r rest 0x42 (okReply []))) ∧
    (s.planner.limitsLocked = true → s.asks r rest 0x42 [] → s.planner.limits ≠ none →
      exec .lockLimits s = .next (s.answered r rest 0x42 (okReply []))) ∧
    (s.planner.limitsLocked = true → s.asks r rest 0x41 p → p.length = 48 →
      exec .loadLimits s =
        .next (s.answered r rest 0x41 { status := .locked, result := [] })) ∧
    (∀ straps permit, ∃ t : State, exec (.pinReset straps permit) s = .next t ∧
      t.planner.limitsLocked = false) ∧
    (s.asks r rest 0x51 [] → ∃ t : State, exec .resetController s = .next t ∧
      t.planner.limitsLocked = s.planner.limitsLocked ∧ t.planner.limits = s.planner.limits) ∧
    (s.site.requests = r :: rest → r.dest = 0xFF → r.payload = 0x42 :: p →
      exec .lockLimits s = .next { s with site.requests := rest })

/-- Set Report Destination (R184): a length other than 1, the part's own address and the drive
proxies are refused BAD_PARAM; every other destination, broadcast too, replaces the old one, which
the response carries; the next report to start goes to the new one while a frame in flight is
untouched; and a broadcast request is discarded. -/
def Obligations.SetReportDestinationReplaces : Prop :=
  ∀ (s : State) (r : Request) (rest : List Request) (p : List Byte) (b : Byte),
    (s.asks r rest 0x44 p → p.length ≠ 1 → exec .setReportDestination s =
      .next (s.answered r rest 0x44 { status := .badParam, result := [] })) ∧
    (s.asks r rest 0x44 [b] → b = s.site.address ∨ b = 0x30 ∨ b = 0x31 ∨ b = 0x32 →
      exec .setReportDestination s =
        .next (s.answered r rest 0x44 { status := .badParam, result := [] })) ∧
    (s.asks r rest 0x44 [b] → b ≠ s.site.address → b ≠ 0x30 → b ≠ 0x31 → b ≠ 0x32 →
      exec .setReportDestination s = .next
        (({ s with rep.dest := b } : State).answered r rest 0x44 (okReply [s.rep.dest]))) ∧
    (∀ q qs, s.site.tx.inFlight = none → s.site.tx.gap = 0 → s.site.responses = [] →
      s.rep.queue = q :: qs → ∃ t : State, exec .siteTransmitStart s = .next t ∧
        t.rep.queue = qs ∧ t.site.tx.inFlight.map (·.frame.dest) = some s.rep.dest) ∧
    (s.site.requests = r :: rest → r.dest = 0xFF → r.payload = 0x44 :: p →
      exec .setReportDestination s = .next { s with site.requests := rest })

/-- Load Forwarding replaces the forwarding table and the telemetry destination (R176), and the
first Enable Supervision stores its values, turns supervision on, locks it and starts the interval
timer; values outside their ranges are refused BAD_PARAM before that, and every later one is refused
LOCKED, whatever its values (R74). -/
def Obligations.ForwardingAndSupervisionAreSet : Prop :=
  ∀ (s : State) (r : Request) (rest : List Request) (p : List Byte),
    (∀ (table : List ForwardEntry) (dest : Option Byte), s.asks r rest 0x43 p →
      p.length = 3 + 4 * natAt p 2 1 → natAt p 2 1 ≤ 16 →
      (natAt p 0 1 = 0 ∧ dest = none) ∨
        (natAt p 0 1 = 1 ∧ dest = p[1]? ∧ dest ≠ some s.site.address ∧ dest ≠ some 0x30 ∧
          dest ≠ some 0x31 ∧ dest ≠ some 0x32) →
      forwardingOf p = some table →
      exec .loadForwarding s = .next
        (({ s with site.forwarding := table, site.telemetryDest := dest } : State).answered
          r rest 0x43 (okReply (natBytes 1 table.length)))) ∧
    (s.asks r rest 0x45 p → p.length = 4 →
      (1 ≤ natAt p 0 2 → natAt p 0 2 ≤ 600 → natAt p 2 2 ≤ 3600 →
        s.seq.sup.locked = false → exec .enableSupervision s = .next
        (({ s with seq.sup := { s.seq.sup with
              on := true, locked := true, interval := natAt p 0 2, grace := natAt p 2 2
              timer := some s.time.mount } } : State).answered r rest 0x45 (okReply []))) ∧
      (s.seq.sup.locked = false → natAt p 0 2 = 0 ∨ 600 < natAt p 0 2 ∨ 3600 < natAt p 2 2 →
        exec .enableSupervision s =
          .next (s.answered r rest 0x45 { status := .badParam, result := [] })) ∧
      (s.seq.sup.locked = true → exec .enableSupervision s =
        .next (s.answered r rest 0x45 { status := .locked, result := [] })))

/-- Set Time (R159): a step above 2,000 microseconds in a moving state is refused TIME_STEP with
that step; else mount time is the value, TIME_VALID is true and a pending load is gone. By a forward
step the active target's dwell, its guide counts and the grace count move on as they run, and a head
whose start is crossed has its event handed over; by a backward step the running encoder watches and
the supervision interval restart; then every queued record whose latest_start the new time has
passed, or whose expiry was handed over before, expires in queue order, and the activation test
runs, which acts in IDLE only; this is the whole next state (R61, R138, R142, R159, R164, R165,
R166). When passed windows expire is the model's reading (log 5), that dwell falls to 0 at most and
dwell_counted rises by what it fell is the model's reading (log 17), and that the step is shown in 8
bytes modulo 2^64 is the model's choice (log 30). -/
def Obligations.SetTimeSetsMountTime : Prop :=
  ∀ (s : State) (r : Request) (rest : List Request) (p : List Byte), s.asks r rest 0x48 p →
    p.length = 8 → s.idsValid → s.idsUnique →
    let value := beNat p
    let step := (value : Int) - s.time.mount
    let resting := s.seq.motion ∈ [.parked, .idle, .alarm]
    let moved : State := { s.stepped value with
      site.requests := rest
      time := { s.time with mount := value, valid := true, load := none } }
    let expired := moved.expiredFrom (s.passedBy value)
    let result := natBytes 8 value ++ intBytes 8 step ++ [flagByte s.time.load.isSome]
    (¬resting → 2000 < step.natAbs → exec .setTime s =
      .next (s.answered r rest 0x48 { status := .timeStep, result := intBytes 8 step })) ∧
    (resting ∨ step.natAbs ≤ 2000 →
      exec .setTime s = .next (expired.testActivation.answered r rest 0x48 (okReply result)) ∧
      (s.seq.motion ≠ .idle ∨ s.seq.mode = .hold ∨ s.seq.queue = [] →
        exec .setTime s = .next (expired.answered r rest 0x48 (okReply result))) ∧
      (s.passedBy value = [] → s.seq.motion ≠ .idle →
        exec .setTime s = .next (moved.answered r rest 0x48 (okReply result))))

/-- Set Time At Pulse arms a pending load and touches nothing else (R160). At a PULSE edge the clock
is captured; a pending load is then gone, and reported: refused beyond 2,000 microseconds in a
moving state, else mount time becomes its value, and the load moves by its forward or backward step
what Set Time moves by it: dwell, guide counts, grace count and the head's start event, or the
encoder watches and the supervision interval; the queued records that it passes, or whose expiry was
handed over before, leave, and the activation test runs, which acts in IDLE only; this is the whole
next state (R61, R138, R142, R161, R164, R165, R166). The order of the load's report before window
expiries is the model's reading (logs 5 and 26), and so is that dwell falls to 0 at most (log 17).
-/
def Obligations.PulseLoadsMountTime : Prop :=
  ∀ (s : State) (r : Request) (rest : List Request) (p : List Byte),
    (s.asks r rest 0x49 p → p.length = 8 → exec .setTimeAtPulse s = .next
      (({ s with time.load := some (beNat p) } : State).answered r rest 0x49
        (okReply [flagByte s.time.load.isSome]))) ∧
    (s.time.load = none → exec .pulseEdge s = .next { s with
      time.pulseTime := some s.time.mount, time.pulseNew := true }) ∧
    (∀ value, s.time.load = some value →
      let step := (value : Int) - s.time.mount
      let resting := s.seq.motion ∈ [.parked, .idle, .alarm]
      (¬resting → 2000 < step.natAbs → exec .pulseEdge s = .next { s with
        time := { s.time with pulseTime := some s.time.mount, pulseNew := true, load := none }
        rep := offerReport s.rep (.pulseLoad true value s.time.mount step) s.time.mount
          s.activeId }) ∧
      (resting ∨ step.natAbs ≤ 2000 → s.idsValid → s.idsUnique →
        let moved : State := { s.stepped value with
          time := { mount := value, valid := true, pulseTime := some s.time.mount
                    pulseNew := true, load := none }
          rep := offerReport s.rep (.pulseLoad false value s.time.mount step) s.time.mount
            s.activeId }
        let expired := moved.expiredFrom (s.passedBy value)
        exec .pulseEdge s = .next expired.testActivation ∧
        (s.seq.motion ≠ .idle ∨ s.seq.mode = .hold ∨ s.seq.queue = [] →
          exec .pulseEdge s = .next expired) ∧
        (s.passedBy value = [] → s.seq.motion ≠ .idle → exec .pulseEdge s = .next moved)) ∧
      (resting ∨ step.natAbs ≤ 2000 → ∃ t : State, exec .pulseEdge s = .next t ∧
        t.time = { mount := value, valid := true, pulseTime := some s.time.mount
                   pulseNew := true, load := none } ∧
        (offerReport s.rep (.pulseLoad false value s.time.mount step) s.time.mount
          s.activeId).queue <+: t.rep.queue ∧
        (s.seq.motion ≠ .idle → t.seq.motion = s.seq.motion ∧ t.seq.expiryHanded = [] ∧
          t.seq.queue = withoutRecords s.seq.queue (s.passedBy value)) ∧
        t.seq.mode = s.seq.mode ∧ t.seq.shelf = s.seq.shelf ∧ t.cond = s.cond ∧
        t.ports = s.ports ∧ t.site = s.site ∧ t.guide = s.guide ∧
        t.servo.latest = s.servo.latest))

/-- Reset Controller in PARKED, IDLE and ALARM (R187): the queues, the chains, the commit, the
pending load and the slots go without reports, the queue is held, supervision's timer restarts where
it is on, and the motion state, the tables, the alarm record and the rest stay; its own response
alone stands in the response queue. In a moving state it is refused WRONG_STATE. -/
def Obligations.ResetControllerClearsQueues : Prop :=
  ∀ (s : State) (r : Request) (rest : List Request), s.asks r rest 0x51 [] →
    (s.seq.motion ∉ [.parked, .idle, .alarm] → exec .resetController s =
      .next (s.answered r rest 0x51 { status := .wrongState, result := [] })) ∧
    (s.seq.motion ∈ [.parked, .idle, .alarm] → exec .resetController s = .next { s with
      time := { s.time with load := none }
      seq := { s.seq with
        queue := [], active := none, shelf := [], outcomes := [], mode := .hold
        parkPending := false, starved := false, startHanded := false, expiryHanded := [], spell := none
        sup := { s.seq.sup with
          timer := if s.seq.sup.on then some s.time.mount else none
          lapsed := false
          graceCount := none } }
      chains := []
      planner := { s.planner with current := .none }
      corr := { s.corr with commitPending := false }
      ports := .of (fun x => { s.ports.get x with setpoint := none, service := [] })
      site := { s.site with
        requests := [], telemetry := [], returns := []
        responses := [{ dest := r.src, tag := r.tag, code := 0x51
                        reply := okReply [motionCode s.seq.motion] }] }
      rep := { s.rep with
        queue := []
        lost := s.rep.lost || !s.rep.queue.isEmpty
        lossMarker := s.rep.lossMarker || !s.rep.queue.isEmpty } })

/-! ## Frames in -/

/-- A REQUEST for the part restarts the supervision interval and recovers a lapse, and joins the
request buffer or is dropped with request_dropped; a frame for another station is ignored (R75, R77,
R170, R172). -/
def Obligations.RequestReceptionBuffers : Prop :=
  ∀ (s : State) (f : Frame), s.site.rx = .hunt → f.payload.length ≤ 240 →
    (f.dest = s.site.address ∨ f.dest = 0xFF → f.kind = 0x10 →
      exec (.requestFrameReception f) s = .next { s with
        site := { s.site with
          rx := .hunt
          requests := if s.site.requests.length < 4 then
              s.site.requests ++
                [{ src := f.src, dest := f.dest, tag := f.tag, payload := f.payload }]
            else s.site.requests
          requestDropped := s.site.requestDropped ||
            decide (4 ≤ s.site.requests.length) }
        seq.parkPending := s.seq.parkPending &&
          !(s.seq.sup.lapsed && decide (s.seq.motion ≠ .parking))
        seq.sup := { s.seq.sup with
          timer := if s.seq.sup.on then some s.time.mount else s.seq.sup.timer
          lapsed := false
          graceCount := if s.seq.sup.lapsed then none else s.seq.sup.graceCount } }) ∧
    (f.dest ≠ s.site.address → f.dest ≠ 0xFF → f.dest ≠ 0x30 → f.dest ≠ 0x31 →
      f.dest ≠ 0x32 → exec (.requestFrameReception f) s = .next { s with site.rx := .hunt }) ∧
    (f.dest = s.site.address ∨ f.dest = 0xFF → f.kind ≠ 0x10 →
      f.kind ≠ 0x18 ∨ f.dest ≠ s.site.address →
      exec (.requestFrameReception f) s = .next { s with site.rx := .hunt })

/-- A frame to a drive proxy, by the cases of R177 in their order: forwarded with its header
rewritten and its source recorded as last requester, dropped in silence, or dropped with
FORWARD_REFUSED. A service reply goes to its axis's last requester through the axis's return slot:
dropped in silence without a requester, and with FORWARD_REFUSED where the slot is full (R178). -/
def Obligations.ProxyFramesAndReplies : Prop :=
  (∀ (s : State) (f : Frame) (x : Lane), s.site.rx = .hunt → f.payload.length ≤ 240 →
     f.dest = proxyOf x → f.dest ≠ s.site.address →
     let kind := f.kind.toNat
     let refused : RefusedReason → Host.Outcome State Fault Refusal := fun why => .next { s with
       site.rx := .hunt
       rep := offerReport s.rep (.forwardRefused false x f.kind f.tag f.src why) s.time.mount
         s.activeId }
     (0x20 ≤ kind ∧ kind ≤ 0x27 → exec (.proxyServiceFrame f) s = refused .motionKind) ∧
     (kind < 0x20 ∨ 0x2F < kind →
       exec (.proxyServiceFrame f) s = .next { s with site.rx := .hunt }) ∧
     (0x28 ≤ kind → kind ≤ 0x2F →
       ((∀ e ∈ s.site.forwarding, e.proxy = x → ¬(e.low ≤ kind ∧ kind ≤ e.high)) →
         exec (.proxyServiceFrame f) s = .next { s with site.rx := .hunt }) ∧
       ∀ (before after : List ForwardEntry) (e : ForwardEntry),
         s.site.forwarding = before ++ e :: after →
         (∀ d ∈ before, d.proxy = x → ¬(d.low ≤ kind ∧ kind ≤ d.high)) →
         e.proxy = x → e.low ≤ kind → kind ≤ e.high →
         let quiet := e.action = .forwardQuiet ∧ s.seq.motion ∉ [.parked, .idle, .alarm]
         (e.action = .drop →
           exec (.proxyServiceFrame f) s = .next { s with site.rx := .hunt }) ∧
         (quiet → exec (.proxyServiceFrame f) s = refused .busy) ∧
         (e.action ≠ .drop → ¬quiet → 2 ≤ (s.ports.get x).service.length →
           exec (.proxyServiceFrame f) s = refused .full) ∧
         (e.action ≠ .drop → ¬quiet → (s.ports.get x).service.length < 2 →
           exec (.proxyServiceFrame f) s = .next { s with
             site.rx := .hunt
             ports := s.ports.set x { s.ports.get x with
               service := (s.ports.get x).service ++
                 [{ dest := (s.axis x).node, src := 0x01, kind := f.kind, tag := f.tag
                    payload := f.payload }]
               requester := some f.src } }))) ∧
  (∀ (s : State) (f : Frame) (x : Lane), (s.ports.get x).rx = .hunt →
     f.payload.length ≤ 240 → f.dest = 0x01 → f.src = (s.axis x).node →
     0x28 ≤ f.kind.toNat → f.kind.toNat ≤ 0x2F →
     let ports := s.ports.set x { s.ports.get x with rx := .hunt }
     let full := ∃ e ∈ s.site.returns, e.axis = x
     ((s.ports.get x).requester = none →
       exec (.serviceReply x f) s = .next { s with ports }) ∧
     ∀ station, (s.ports.get x).requester = some station →
       (full → exec (.serviceReply x f) s = .next { s with
         ports
         rep := offerReport s.rep (.forwardRefused true x f.kind f.tag station .full)
           s.time.mount s.activeId }) ∧
       (¬full → exec (.serviceReply x f) s = .next { s with
         ports
         site.returns := s.site.returns ++
           [{ axis := x, frame :=
             { dest := station, src := proxyOf x, kind := f.kind, tag := f.tag
               payload := f.payload } }] }))

/-- A receiver in HUNT waits for a start byte; in FRAME it collects the header, discards a length
field above 240 as an Oversize into WAIT_IDLE, collects the payload and the CRC, and hands the frame
on where the CRC matches and else discards it; idle time adds up from the last byte on, and 2 byte
times of it discard a frame in reception as a Truncation and take WAIT_IDLE, which ignores every
byte, back to HUNT. A discarded frame counts once up to 65,535; a frame with more than 240 payload
bytes is an Oversize; and in WAIT_IDLE a frame is not taken (R169). That the line's input comes in
one command is the model's (log 24), and so is that the end of WAIT_IDLE does nothing where the
receiver is not in it (log 2). -/
def Obligations.LinkErrorsAreCounted : Prop :=
  (∀ (r : RxState) (c : LineChar) (n : Nat) (rest : List LineInput) (i : LineInput),
     let b := charByte c
     rxRun r [] = (r, []) ∧
     rxRun r (i :: rest) =
       ((rxRun (rxNext r i).1 rest).1, (rxNext r i).2.toList ++ (rxRun (rxNext r i).1 rest).2) ∧
     (r = .hunt → rxNext r (.char c) = (if b = 0xA5 then .frame [] 0 else .hunt, none) ∧
       rxNext r (.quiet n) = (.hunt, none)) ∧
     (∀ idle, r = .waitIdle idle → rxNext r (.char c) = (.waitIdle 0, none) ∧
       (idle + n < 2 → rxNext r (.quiet n) = (.waitIdle (idle + n), none)) ∧
       (2 ≤ idle + n → rxNext r (.quiet n) = (.hunt, none))) ∧
     ∀ bytes idle, r = .frame bytes idle →
       let all := bytes ++ [b]
       let length := natAt all 4 2
       (idle + n < 2 → rxNext r (.quiet n) = (.frame bytes (idle + n), none)) ∧
       (2 ≤ idle + n → rxNext r (.quiet n) = (.hunt, some (.discarded .truncation))) ∧
       (all.length < 6 → rxNext r (.char c) = (.frame all 0, none)) ∧
       (6 ≤ all.length → 240 < length →
         rxNext r (.char c) = (.waitIdle 0, some (.discarded .oversize))) ∧
       (6 ≤ all.length → length ≤ 240 → all.length < length + 8 →
         rxNext r (.char c) = (.frame all 0, none)) ∧
       (length ≤ 240 → all.length = length + 8 →
         (natAt all (length + 6) 2 = (crc16 (all.take (length + 6))).toNat →
           ∃ dest src kind tag, all.take 4 = [dest, src, kind, tag] ∧
             rxNext r (.char c) = (.hunt, some (.received
               { dest, src, kind, tag, payload := (all.drop 6).take length }))) ∧
         (natAt all (length + 6) 2 ≠ (crc16 (all.take (length + 6))).toNat →
           rxNext r (.char c) = (.hunt, some (.discarded .crc))))) ∧
  ∀ (s : State) (x : Lane) (input : List LineInput) (e : LinkError) (f : Frame),
    let count : Nat → Nat := fun n => if 65535 ≤ n then n else n + 1
    let site := rxRun s.site.rx input
    let axis := rxRun (s.ports.get x).rx input
    (site.2 = [] → exec (.linkError .site input) s = .next { s with site.rx := site.1 }) ∧
    (site.2 = [.discarded e] → exec (.linkError .site input) s = .next { s with
      site.rx := site.1, site.linkErrors := count s.site.linkErrors }) ∧
    (axis.2 = [] → exec (.linkError (.axis x) input) s = .next { s with
      ports := s.ports.set x { s.ports.get x with rx := axis.1 } }) ∧
    (axis.2 = [.discarded e] → exec (.linkError (.axis x) input) s = .next { s with
      ports := s.ports.set x { s.ports.get x with
        rx := axis.1, linkErrors := count (s.ports.get x).linkErrors } }) ∧
    (s.site.rx = .hunt → 240 < f.payload.length → f.payload.length ≤ 65535 →
      exec (.requestFrameReception f) s = .next { s with
        site.rx := .waitIdle 0, site.linkErrors := count s.site.linkErrors }) ∧
    (∀ idle, s.site.rx = .waitIdle idle →
      let ignored : State := { s with site.rx := .waitIdle 0 }
      exec (.waitIdleReturnToHunt .site) s = .next { s with site.rx := .hunt } ∧
      exec (.requestFrameReception f) s = .next ignored ∧
      exec (.guideFrame f) s = .next ignored ∧ exec (.proxyServiceFrame f) s = .next ignored) ∧
    ((∀ idle, s.site.rx ≠ .waitIdle idle) →
      exec (.waitIdleReturnToHunt .site) s = .next s) ∧
    (∀ idle, (s.ports.get x).rx = .waitIdle idle →
      let moved : RxState → State := fun rx =>
        { s with ports := s.ports.set x { s.ports.get x with rx } }
      exec (.waitIdleReturnToHunt (.axis x)) s = .next (moved .hunt) ∧
      exec (.sample x f) s = .next (moved (.waitIdle 0)) ∧
      exec (.serviceReply x f) s = .next (moved (.waitIdle 0))) ∧
    ((∀ idle, (s.ports.get x).rx ≠ .waitIdle idle) →
      exec (.waitIdleReturnToHunt (.axis x)) s = .next s)

/-! ## Frames out -/

/-- Each arbiter starts its first source that holds a frame when its line is free, and nothing while
it is not: an axis port the control slot, the setpoint slot, the service queue; the site port
responses, reports, return slots, telemetry; and the end of a frame leaves the line idle for 2 byte
times (R129, R168, R173, R175, R182). That the end of a frame is taken whenever one is in flight is
the model's (log 23). -/
def Obligations.ArbitersStartFrames : Prop :=
  ∀ (s : State) (x : Lane),
    let line : Frame → Transmitter := fun f =>
      { inFlight := some { frame := f, wire := frameWire f, pos := 0, cut := false }, gap := 0 }
    let port := s.ports.get x
    (port.tx.inFlight = none → port.tx.gap = 0 →
      (∀ f, port.control = some f → exec (.axisTransmitStart x) s = .next { s with
        ports := s.ports.set x { port with tx := line f, control := none } }) ∧
      (∀ f, port.control = none → port.setpoint = some f →
        exec (.axisTransmitStart x) s = .next { s with
          ports := s.ports.set x { port with tx := line f, setpoint := none } }) ∧
      (∀ f fs, port.control = none → port.setpoint = none → port.service = f :: fs →
        exec (.axisTransmitStart x) s = .next { s with
          ports := s.ports.set x { port with tx := line f, service := fs } })) ∧
    (port.tx.inFlight ≠ none ∨ port.tx.gap ≠ 0 →
      exec (.axisTransmitStart x) s = .next s) ∧
    (∀ f, port.tx.inFlight = some f → exec (.frameTransmissionEnd (.axis x)) s = .next { s with
      ports := s.ports.set x { port with tx := { inFlight := none, gap := 2 } } }) ∧
    (s.site.tx.inFlight = none → s.site.tx.gap = 0 →
      (∀ r rs, s.site.responses = r :: rs → exec .siteTransmitStart s = .next { s with
        site := { s.site with
          responses := rs
          tx := line { dest := r.dest, src := s.site.address, kind := 0x11, tag := r.tag
                       payload := [r.code, statusCode r.reply.status] ++ r.reply.result } } }) ∧
      (∀ r rs, s.site.responses = [] → s.rep.queue = r :: rs →
        exec .siteTransmitStart s = .next { s with
          rep := { s.rep with queue := rs }
          site := { s.site with
            tx := line { dest := s.rep.dest, src := s.site.address, kind := 0x12, tag := 0
                         payload := reportPayload r } } }) ∧
      (∀ r rs, s.site.responses = [] → s.rep.queue = [] → s.site.returns = r :: rs →
        exec .siteTransmitStart s = .next { s with
          site := { s.site with returns := rs, tx := line r.frame } }) ∧
      (∀ e es, s.site.responses = [] → s.rep.queue = [] → s.site.returns = [] →
        s.site.telemetry = e :: es →
        (∀ d, s.site.telemetryDest = some d → exec .siteTransmitStart s = .next { s with
          site := { s.site with
            telemetry := es
            tx := line { dest := d, src := s.site.address, kind := 0x13, tag := 0
                         payload := telemetryPayload e } } }) ∧
        (s.site.telemetryDest = none → exec .siteTransmitStart s = .next { s with
          site := { s.site with telemetry := [] } }))) ∧
    (s.site.tx.inFlight ≠ none ∨ s.site.tx.gap ≠ 0 → exec .siteTransmitStart s = .next s) ∧
    (∀ f, s.site.tx.inFlight = some f → exec (.frameTransmissionEnd .site) s = .next { s with
      site := { s.site with tx := { inFlight := none, gap := 2 } } })

/-! ## Samples -/

/-- An accepted SAMPLE without FAULT, LIMIT_SWITCH or a measured angle outside the hard limits,
outside the running states (R115, R116, R118 to R123, R128): the latest-sample record is written and
the watch restarted. In PARKED and ALARM no SETPOINT follows. In IDLE the hold position, and in
STOPPING and PARKING the plan's value a lead after the arrival, goes into the setpoint slot with the
sample's tag, or the nearest count with the HOLD marker where its count lies out of range or its
angle outside the hard limits; the commanded angle at the sample's own time and the following error
join the record, and in PARKING the park completion is tested. In each state the telemetry step ends
the sample. The plan's numbers are computed as logs 10 and 12 say. -/
def Obligations.SampleAtRestCommandsHold : Prop :=
  ∀ (s : State) (x : Lane) (f : Frame) (v : SampleFields), s.heard x f v →
    let now := s.time.mount
    let a := s.axis x
    let l : LatestSample :=
      { arrival := now, sampleTime := now - v.age, counts := v.counts, fault := false
        limitSwitch := false, braked := v.braked
        measured := s.planner.axes.map (fun t => measuredAngle (t.get x) v.counts)
        commanded := none, error := none, holdMark := false
        seenSinceAlarm := decide (s.seq.motion = .alarm) ||
          (s.servo.latest.get x).any (·.seenSinceAlarm) }
    let heard : State := { s with servo := { s.servo with
      latest := s.servo.latest.set x (some l)
      watch := s.servo.watch.set x ((s.servo.watch.get x).map (fun _ =>
        { restart := now, interval := a.watch })) } }
    let source : Nat → Motion := fun t =>
      if s.seq.motion = .idle then { pos := s.seq.hold.get x, vel := 0 } else s.planValue x t
    let m := source (now + a.lead)
    let count := countOf a m.pos
    let fits := decide (a.countMin ≤ count) && decide (count ≤ a.countMax) &&
      !s.guarded x m.pos
    let sent := if fits then heard.commanding x f.tag count (velocityCounts a m.vel) 0
      else heard.commanding x f.tag (clampInt a.countMin a.countMax count) 0 1
    let commanded := (source (now - v.age)).pos
    let measured : State := { sent with servo.latest := sent.servo.latest.set x (some
      { l with
        commanded := some commanded
        error := l.measured.map (fun angle => commanded - 256 * angle)
        holdMark := !fits }) }
    (s.seq.motion = .parked ∨ s.seq.motion = .alarm →
      exec (.sample x f) s = .next (heard.telemetryStep x)) ∧
    (s.planner.axes ≠ none → s.seq.motion = .idle ∨ s.seq.motion = .stopping →
      exec (.sample x f) s = .next (measured.telemetryStep x)) ∧
    (s.planner.axes ≠ none → s.seq.motion = .parking →
      exec (.sample x f) s = .next (measured.parkTest.telemetryStep x))

/-- A SAMPLE in a running state with no pending fault (R39, R112 to R114, R118 to R122): the lane's
blend advances and its chain retires, and the plan's value in SLEWING, or in SETTLING, TRACKING and
DEGRADED the composition where its chain has a value and the composed angle lies within the soft
limits, at the arrival time plus the lead, goes into the setpoint slot where its count lies in range
and its angle within the hard limits. With TRACK_ERROR masked the target, the queue and the rest of
the Sequencer's lists stay. A blend moves the applied offset towards the effective offset by at most
the rate times the elapsed time, and sets the blend rate (R112). The trigonometric values, the
plan's numbers and the rounding of a blend's advance are computed as logs 10, 13 and 29 say. -/
def Obligations.SampleInTrackingCommandsComposition : Prop :=
  (∀ (s : State) (x : Lane) (f : Frame) (v : SampleFields) (a : Running), s.heard x f v →
     s.seq.active = some a → pendingFault a.ctx.flags s.cond.mask = none →
     let t := s.time.mount + (s.axis x).lead
     let chains := mapChain s.chains a.record.targetId x (fun c => c.retire t)
     let ctx := a.ctx.advance x (s.axis x).offsetRate s.time.mount
     let m : Motion := if s.seq.motion = .slewing then s.planValue x t else
       { pos := (skyMotion chains a.record x t).pos + wrapPart x ctx.wrapK +
           pointingPart s.corr.active chains a.record x t + ctx.applied.get x +
           guidePart ctx.guide x
         vel := (skyMotion chains a.record x t).vel + 256 * ctx.blendRate.get x }
     s.seq.motion = .slewing ∨ (s.seq.motion ∈ [.settling, .tracking, .degraded] ∧
       (∀ c, findChain s.chains a.record.targetId x = some c → (c.retire t).valueAt t ≠ none) ∧
       256 * (s.limit x).softMin ≤ m.pos ∧ m.pos ≤ 256 * (s.limit x).softMax) →
     (s.axis x).countMin ≤ countOf (s.axis x) m.pos →
     countOf (s.axis x) m.pos ≤ (s.axis x).countMax → s.guarded x m.pos = false →
     ∃ u : State, exec (.sample x f) s = .next u ∧
       (u.ports.get x).setpoint = some
         { dest := (s.axis x).node, src := 0x01, kind := 0x20, tag := f.tag
           payload := intBytes 4 (countOf (s.axis x) m.pos) ++
             intBytes 4 (velocityCounts (s.axis x) m.vel) ++ [0] } ∧
       (∀ y, y ≠ x → u.ports.get y = s.ports.get y) ∧
       (s.cond.mask.getLsbD 3 = true →
         (∃ b, u.seq.active = some b ∧ b.record.targetId = a.record.targetId ∧
           b.ctx.applied = ctx.applied ∧ b.ctx.blendTime = ctx.blendTime ∧
           b.ctx.blendRate = ctx.blendRate ∧ b.ctx.stack = a.ctx.stack ∧
           b.ctx.dwellRemaining = a.ctx.dwellRemaining ∧ b.ctx.wrapK = a.ctx.wrapK) ∧
         u.seq.queue = s.seq.queue ∧ u.seq.shelf = s.seq.shelf ∧
         u.seq.outcomes = s.seq.outcomes ∧ u.seq.mode = s.seq.mode ∧
         u.seq.hold = s.seq.hold ∧ u.seq.sup = s.seq.sup ∧
         u.seq.parkPending = s.seq.parkPending ∧ u.time = s.time ∧ u.cond = s.cond ∧
         u.planner = s.planner ∧ u.corr = s.corr ∧ u.guide = s.guide)) ∧
  (∀ (c : Context) (x : Lane) (rate now : Nat),
     let goal := 256 * c.stack.effective x
     let from_ := c.applied.get x
     let most : Nat := 256 * rate * (now - c.blendTime.get x) / 1000000
     let reached : Int := if (goal - from_).natAbs ≤ most then goal
       else if from_ < goal then from_ + most else from_ - most
     c.advance x rate now = { c with
       applied := c.applied.set x reached
       blendTime := c.blendTime.set x now
       blendRate := c.blendRate.set x
         (if reached < goal then rate else if goal < reached then -rate else 0) })

/-! ## Alarms -/

/-- An alarm raised outside ALARM by a fall of PERMIT, an encoder watch or a SAMPLE with FAULT,
LIMIT_SWITCH or a measured angle outside the hard limits: its report is offered, it is the first
cause, the active target leaves FAULTED and then the shelf ABANDONED from the top down, each with
its outcome entry and report, the queue is held, park pending, the grace count and the plan go, the
seen-since-alarm marks are cleared, an in-flight SETPOINT is cut off and each port gets a BRAKE
(R72, R116, R117, R131, R154, R155; log 22). In ALARM a pair already in the set changes nothing and
a new one joins it with one report. A SAMPLE with both causes raises DRIVE_FAULT first. That
ENCODER_SILENT does nothing before its watch is due and where no watch runs is the model's (log 2).
-/
def Obligations.AlarmsEnterAlarm : Prop :=
  (∀ (s : State) (x : Lane), s.slotMatches →
     exec .permitLost s = .next (({ s with permit := false } : State).raised .permitLost none) ∧
     exec .permitRise s = .next { s with permit := true } ∧
     (∀ w, s.servo.watch.get x = some w →
       (w.restart + w.interval ≤ s.time.mount →
         exec (.encoderSilent x) s = .next (s.raised .encoderSilent (some x))) ∧
       (s.time.mount < w.restart + w.interval → exec (.encoderSilent x) s = .next s)) ∧
     (s.servo.watch.get x = none → exec (.encoderSilent x) s = .next s) ∧
     ∀ (f : Frame) (v : SampleFields), (s.ports.get x).rx = .hunt → f.dest = 0x01 →
       f.src = (s.axis x).node → f.kind = 0x21 → sampleOf f.payload = some v →
       let hard := v.limitSwitch || s.beyondHard x v
       let r := s.recordSample x v
       (v.fault = true → hard = false →
         exec (.sample x f) s = .next ((r.raised .driveFault (some x)).telemetryStep x)) ∧
       (v.fault = false → hard = true →
         exec (.sample x f) s = .next ((r.raised .hardLimit (some x)).telemetryStep x)) ∧
       (v.fault = true → hard = true → exec (.sample x f) s =
         .next (((r.raised .driveFault (some x)).raised .hardLimit (some x)).telemetryStep x))) ∧
  (∀ (s : State) (k : AlarmKind) (axis : Option Lane) (x : Lane), s.slotMatches →
     s.seq.motion ≠ .alarm →
     let t := s.raised k axis
     t.seq.motion = .alarm ∧ t.seq.active = none ∧ t.seq.shelf = [] ∧ t.seq.mode = .hold ∧
     t.planner.current = .none ∧ t.seq.queue = s.seq.queue ∧
     t.cond = { s.cond with
       first := some { kind := k, axis, time := s.time.mount }, causeSet := [(k, axis)] } ∧
     (∀ a, s.seq.active = some a → t.seq.outcomes =
       (leaving (s.seq.shelf.map (·.record)) .abandoned .aborted .shelved s.time.mount).foldl
         pushOutcome (pushOutcome s.seq.outcomes
           { record := s.leavingRecord a, verdict := .faulted, reason := .byAlarm k, axis
             time := s.time.mount, place := .active })) ∧
     (∀ l, t.servo.latest.get x = some l → l.seenSinceAlarm = false) ∧
     (t.ports.get x).control = some (brakeFrame (s.axis x).node) ∧
     (t.ports.get x).setpoint = none ∧ (t.ports.get x).service = (s.ports.get x).service ∧
     ((s.ports.get x).tx.inFlight = none → (t.ports.get x).tx = (s.ports.get x).tx) ∧
     ∀ i, (s.ports.get x).tx.inFlight = some i →
       let inverted : List Byte → List Byte := fun bytes => bytes.map (fun b => ~~~b)
       let sent := i.wire.take (i.pos + 1)
       let after : List Byte → Prop := fun wire => (t.ports.get x).tx =
         { (s.ports.get x).tx with inFlight := some { i with wire, cut := true } }
       (i.frame.kind ≠ 0x20 ∨ i.cut = true → (t.ports.get x).tx = (s.ports.get x).tx) ∧
       (i.frame.kind = 0x20 → i.cut = false →
         (i.pos + 2 < i.wire.length →
           after (sent ++ inverted (natBytes 2 (crc16 (sent.drop 1)).toNat))) ∧
         (i.pos + 2 = i.wire.length → after (sent ++ inverted (i.wire.drop (i.pos + 1)))) ∧
         (i.wire.length ≤ i.pos + 1 → after i.wire)))

/-! ## Shutter, supervision and the events of time -/

/-- A SHUTTER edge is captured into the active target's list, or marks its overflow, and an OPEN
edge in SLEWING, SETTLING or DEGRADED is a SHUTTER_OFF_TARGET occurrence, with its report where the
flag was clear; unmasked, the target leaves FAULTED; with the slot empty the edge is reported (R4,
R148, R149, R163). -/
def Obligations.ShutterEdgesAreCaptured : Prop :=
  ∀ (s : State) (e : ShutterEdge),
    (s.seq.active = none → exec (.shutterEdge e) s = .next { s with
      rep := offerReport s.rep (.shutterUnattached e s.seq.motion) s.time.mount 0 }) ∧
    ∀ a, s.seq.active = some a →
      let entry : Capture :=
        { edge := e, time := s.time.mount, state := s.seq.motion, maxError := s.largestError
          stackTop := a.ctx.stack.top }
      let record : TargetRecord :=
        if a.record.captures.length < 16 then
          { a.record with captures := a.record.captures ++ [entry] }
        else { a.record with captureOverflow := true }
      let off := e = .opening ∧ s.seq.motion ∈ [.slewing, .settling, .degraded]
      let b : Running := { a with record, ctx.flags := a.ctx.flags ||| 0x40 }
      let u : State := { s with
        seq.active := some b
        rep := if a.ctx.flags.getLsbD 6 then s.rep else
          offerReport s.rep (.conditionRaised .shutterOffTarget (s.cond.mask.getLsbD 6) 0xFF
            s.time.mount) s.time.mount a.record.targetId }
      (¬off → exec (.shutterEdge e) s = .next { s with
        seq.active := some { a with record } }) ∧
      (off → s.cond.mask.getLsbD 6 = true → exec (.shutterEdge e) s = .next u) ∧
      (off → s.cond.mask.getLsbD 6 = false → ∃ t : State,
        exec (.shutterEdge e) s = .next t ∧
        u.ended t b .faulted (.condition .shutterOffTarget))

/-- The supervision lapse: reported, the lapsed flag set, the queue held and the timer stopped, and
by motion state a grace count begins with park pending, or with a grace of 0 ends at once, the mount
parks, or park pending waits (R75); at the end of the grace the active target leaves WITHDRAWN LAPSE
(R76); before either is due nothing happens (log 2). -/
def Obligations.LapseHoldsQueueAndParks : Prop :=
  ∀ s : State,
    (∀ timer, s.seq.sup.on = true → s.seq.sup.timer = some timer →
      let lapsed : Supervision := { s.seq.sup with lapsed := true, timer := none }
      let rep := offerReport s.rep (.supervisionLapse s.seq.motion s.seq.sup.interval
        s.seq.sup.grace) s.time.mount s.activeId
      (s.time.mount < timer + s.seq.sup.interval * 1000000 →
        exec .supervisionLapse s = .next s) ∧
      (timer + s.seq.sup.interval * 1000000 ≤ s.time.mount →
        (s.seq.motion.running = true → s.seq.sup.grace ≠ 0 →
          exec .supervisionLapse s = .next { s with
            rep
            seq.mode := .hold
            seq.parkPending := true
            seq.sup := { lapsed with graceCount := some 0 } }) ∧
        (∀ a, s.seq.motion.running = true → s.seq.sup.grace = 0 → s.seq.active = some a →
          ∃ t : State, exec .supervisionLapse s = .next t ∧
            State.ended { s with
              rep
              seq.mode := .hold
              seq.parkPending := true
              seq.sup := { lapsed with graceCount := some 0 } } t a .withdrawn .lapse) ∧
        (s.seq.motion = .stopping → exec .supervisionLapse s = .next { s with
          rep, seq.mode := .hold, seq.parkPending := true, seq.sup := lapsed }) ∧
        (s.seq.motion ∈ [.parking, .parked, .alarm] →
          exec .supervisionLapse s = .next { s with
            rep, seq.mode := .hold, seq.sup := lapsed }) ∧
        (s.seq.motion = .idle → exec .supervisionLapse s = .next (State.moved
          { s with
            rep
            planner.current := .park (s.parkPlan s.holdMotion)
            freeIndex := s.freeIndex + 3
            seq.mode := .hold
            seq.parkPending := false
            seq.sup := lapsed } .parking)))) ∧
    (∀ a elapsed, s.seq.active = some a → s.seq.sup.graceCount = some elapsed →
      (s.seq.sup.grace * 1000000 ≤ elapsed → ∃ t : State, exec .graceExpiry s = .next t ∧
        s.ended t a .withdrawn .lapse) ∧
      (elapsed < s.seq.sup.grace * 1000000 → exec .graceExpiry s = .next s))

/-- Dwell that has run out while it counts completes the target (R61, R62); a slew whose arrival
time is reached becomes SETTLING (R55); a stop profile that has ended becomes IDLE at its end
points, or PARKING with park pending (R71); before each is due nothing happens (log 2). -/
def Obligations.CompletionsEndTheirPhase : Prop :=
  ∀ s : State,
    (∀ a, s.seq.active = some a → s.seq.motion = .tracking →
      a.record.guideMode ≠ .required ∨ a.ctx.guide.state = .locked →
      (a.ctx.dwellRemaining = 0 → ∃ t : State, exec .dwellCompletion s = .next t ∧
        s.ended t a .completed .none) ∧
      (a.ctx.dwellRemaining ≠ 0 → exec .dwellCompletion s = .next s)) ∧
    (∀ p, s.seq.motion = .slewing → s.planner.current = .slew p →
      (p.arrival ≤ s.time.mount → exec .slewCompletion s = .next { s with
        planner.current := .none
        seq.motion := .settling
        servo.settle := some { beginTime := s.time.mount, seen := .const false }
        rep := offerReport s.rep (.phaseChange .slewing .settling) s.time.mount s.activeId }) ∧
      (s.time.mount < p.arrival → exec .slewCompletion s = .next s)) ∧
    (∀ p, s.seq.motion = .stopping → s.planner.current = .stop p →
      (s.time.mount < p.endTime → exec .stopCompletion s = .next s) ∧
      (p.endTime ≤ s.time.mount → s.seq.parkPending = true →
        ∃ t : State, exec .stopCompletion s = .next t ∧ t.seq.motion = .parking ∧
          t.seq.parkPending = false ∧ t.seq.queue = s.seq.queue ∧
          t.planner.current = .park (s.parkPlan (.of (fun x =>
            { pos := (p.axes.get x).restPos, vel := 0 }))) ∧
          t.time = s.time ∧ t.site = s.site ∧ t.ports = s.ports ∧
          t.rep = offerReport s.rep (.phaseChange .stopping .parking) s.time.mount
            s.activeId) ∧
      (p.endTime ≤ s.time.mount → s.seq.parkPending = false →
        ∃ t : State, exec .stopCompletion s = .next t ∧
          (∀ x, t.seq.hold.get x = (p.axes.get x).restPos) ∧
          (t.seq.motion = .idle ∨ t.seq.motion = .slewing) ∧
          (s.seq.queue = [] ∨ s.seq.mode = .hold →
            t.seq.motion = .idle ∧ t.planner.current = .none ∧ t.seq.queue = s.seq.queue) ∧
          t.time = s.time ∧ t.site = s.site ∧ t.ports = s.ports))

/-- Window expiry: every queued record whose expiry has been handed over leaves EXPIRED, whatever
mount time is by then, in queue order and wherever it stands, with its outcome entry and report, and
its chains are released; outside IDLE nothing else changes, and in IDLE the activation test follows
where the head has changed; where none is handed over for a queued record of the named target_id,
nothing happens (R15, R16, R20, R51, R165, logs 2 and 5). -/
def Obligations.PassedWindowsExpire : Prop :=
  ∀ (s : State) (id : Nat), s.idsValid →
    let passed := s.seq.queue.filter (fun q => decide (q.targetId ∈ s.seq.expiryHanded))
    let expired := (s.departed (leaving passed .expired .none .queued s.time.mount)).queued
      (withoutRecords s.seq.queue passed)
    ((∀ q ∈ passed, q.targetId ≠ id) →
      exec (.windowExpiry id) s = .next s) ∧
    ((∃ q ∈ passed, q.targetId = id) →
      (s.seq.motion ≠ .idle → exec (.windowExpiry id) s = .next expired) ∧
      (s.seq.motion = .idle → exec (.windowExpiry id) s =
        .next (if headId expired.seq.queue = headId s.seq.queue then expired
          else expired.testActivation)))

/-- The activation test of a head whose start-time-reached event was handed over (R51 to R54, R164):
in IDLE with the queue in RUN, TIME_VALID true and the start reached, a plan whose arrival and cover
the chains cover is taken, and the record enters the slot with a fresh context and its statistics; a
head that lacks cover asks for segments once, naming the lanes that do cover; a head without a
trajectory leaves ABANDONED, and the next head is tested; in every other case of steps 1 to 4 only
the event is gone; and without such an event nothing happens (log 2). The plan's numbers and the
point that lacks cover are computed as logs 6, 10 and 11 say, and log 41 says when a stretch of 0
leaves no trajectory. -/
def Obligations.ActivationTestAtStartTime : Prop :=
  ∀ s : State,
    (s.seq.startHanded = false → exec .startTimeReached s = .next s) ∧
    (s.seq.startHanded = true →
      let u : State := { s with seq.startHanded := false }
      (s.seq.motion ≠ .idle ∨ s.seq.mode = .hold ∨ s.time.valid = false ∨ s.seq.queue = [] ∨
        (∃ q qs start, s.seq.queue = q :: qs ∧ q.earliestStart = some start ∧
          s.time.mount < start) → exec .startTimeReached s = .next u) ∧
      ∀ (q : TargetRecord) (qs : List TargetRecord), s.seq.queue = q :: qs →
        (∀ start, q.earliestStart = some start → start ≤ s.time.mount) →
        s.time.valid = true → s.seq.motion = .idle → s.seq.mode = .run →
        let tested : State :=
          { u with chains := retireTarget s.chains q.targetId s.time.mount }
        let choice := tested.chooseWrapFor s.holdMotion q (.fresh q.dwell s.time.mount 0)
        let until_ : SlewPlan → Nat := fun plan =>
          plan.arrival + s.planner.globals.activationCover * 1000000
        let lanes : (Chain → Bool) → Lanes Bool := fun covers => .of (fun x =>
          decide (x ∈ q.neededLanes) &&
            (findChain tested.chains q.targetId x).any covers)
        let wanting : Nat → Lanes Bool → State := fun needed covered =>
          if s.seq.starved then tested else
            { tested with
              seq.starved := true
              rep := offerReport s.rep (.segmentsWanted needed covered) s.time.mount q.targetId }
        (∀ plan, choice = .plan plan →
          (targetCovers tested.chains q plan.arrival (until_ plan) = true →
            exec .startTimeReached s = .next ((tested.queued qs).slotted
              { q with stats.activationTime := some s.time.mount }
              (.fresh q.dwell s.time.mount plan.wrapK) plan)) ∧
          (targetCovers tested.chains q plan.arrival (until_ plan) = false →
            exec .startTimeReached s = .next (wanting (until_ plan)
              (lanes (fun c => c.coversSpan plan.arrival (until_ plan)))))) ∧
        (∀ point, choice = .noCover point → exec .startTimeReached s =
          .next (wanting point (lanes (fun c => c.covers point)))) ∧
        (choice = .noTrajectory → s.idsUnique →
          let left := (tested.departed
            (leaving [q] .abandoned .noTrajectory .queued s.time.mount)).queued qs
          exec .startTimeReached s = .next left.testActivation ∧
          (qs = [] → exec .startTimeReached s = .next left)))

/-! ## The steps of a sample -/

/-- A SAMPLE goes through its steps in the order of R118: the record, the evaluation with a pending
fault (R150), the blend, the lane's chain with UNDERRUN and REFILL_WANTED (R39, R41, R43, R44), the
soft limits with LIMIT_APPROACH (R93), the conversion with RANGE and the HOLD marker (R121), the
SETPOINT, the following error with the settle, track, recover and park tests (R56, R60, R71, R123 to
R126), and telemetry (R127). A masked condition sets its flag, reports once and adds its cause, and
an unmasked one ends the target FAULTED at once (R148), after which the sample goes on under the
state entered. A cause that goes may end a DEGRADED spell (R58 to R60). A masked UNDERRUN keeps the
end_position at which the lane is held, and an evaluation that finds a value drops it (R44, log 38).
By which state step 10 tests is the model's (log 34), and the plan that follows an unmasked
LIMIT_APPROACH starts from the clamped angle (log 37). -/
def Obligations.SampleStepsAndTests : Prop :=
  (∀ (s : State) (x : Lane) (f : Frame) (v : SampleFields), s.heard x f v →
     let t := s.time.mount + (s.axis x).lead
     let p := (s.recordSample x v).runningSteps x t
     let q := p.1.commandStep x t p.2
     let sent := match q.2 with
       | some c => q.1.commanding x f.tag c.position c.velocity (flagByte c.hold)
       | none => q.1
     exec (.sample x f) s =
       .next ((sent.errorStep x v (q.2.any (·.hold))).telemetryStep x)) ∧
  (∀ (s : State) (x : Lane) (t : Nat) (a : Running), s.seq.active = some a →
     let axis := axisByte (some x)
     let id := a.record.targetId
     let flag : Nat → Running := fun bit => { a with ctx.flags := a.ctx.flags ||| (1 <<< bit) }
     (s.seq.motion.running = false → s.runningSteps x t = (s, false)) ∧
     (s.seq.motion.running = true →
       (∀ c, pendingFault a.ctx.flags s.cond.mask = some c →
         (s.runningSteps x t).2 = true ∧
           s.ended (s.runningSteps x t).1 a .faulted (.condition c)) ∧
       (pendingFault a.ctx.flags s.cond.mask = none → s.runningSteps x t =
         State.evaluateLane
           { s with
             seq.active := some
               { a with ctx := a.ctx.advance x (s.axis x).offsetRate s.time.mount } } x t)) ∧
     (findChain s.chains id x = none → s.evaluateLane x t = (s, false)) ∧
     (∀ c, findChain s.chains id x = some c →
       let u : State := { s with chains := mapChain s.chains id x (fun c => c.retire t) }
       let free : State := { u with servo.causes.heldAt := s.servo.causes.heldAt.set x none }
       let under := u.flagged a .underrun axis 0
       (s.seq.motion = .slewing → s.evaluateLane x t = (u.refillTest id x, false)) ∧
       (s.seq.motion.composing = true → (c.retire t).valueAt t = none →
         (s.cond.mask.getLsbD 0 = true → s.evaluateLane x t =
           (State.refillTest { under.caused .underrunHold x with
             servo.causes.heldAt := (under.caused .underrunHold x).servo.causes.heldAt.set x
               (some ((c.ending.map (·.position)).getD 0)) } id x, false)) ∧
         (s.cond.mask.getLsbD 0 = false → (s.evaluateLane x t).2 = true ∧
           under.ended (s.evaluateLane x t).1 (flag 0) .faulted (.condition .underrun))) ∧
       (s.seq.motion.composing = true → (c.retire t).valueAt t ≠ none → s.evaluateLane x t =
         ((if (c.retire t).covers t then free.removeCause .underrunHold x else free).refillTest
           id x, false)) ∧
       (∀ e, c.closed = false → c.refillArmed = true → c.ending = some e →
         e.time < s.time.mount + s.planner.globals.refillHorizon * 1000000 →
         s.refillTest id x = { s with
           chains := mapChain s.chains id x (fun c => { c with refillArmed := false })
           rep := offerReport s.rep (.refillWanted x e.time) s.time.mount id }) ∧
       (c.closed = true ∨ c.refillArmed = false ∨ c.ending = none ∨
         (∃ e, c.ending = some e ∧
           s.time.mount + s.planner.globals.refillHorizon * 1000000 ≤ e.time) →
         s.refillTest id x = s)) ∧
     (∀ c : DegradeCause, s.removeCause c x =
       if (s.servo.causes.get c).get x then
         s.lowered a (s.servo.causes.put c ((s.servo.causes.get c).set x false))
       else s) ∧
     s.commandStep x t true = (s, (s.commandedAt x t).map (s.convert x)) ∧
     (s.commandedAt x t = none → s.commandStep x t false = (s, none)) ∧
     (∀ m, s.commandedAt x t = some m → s.commandStep x t false = s.softStep x t m) ∧
     (∀ m : Motion,
       let low := 256 * (s.limit x).softMin
       let high := 256 * (s.limit x).softMax
       let held : Motion → Motion := fun m => if m.pos < low then { pos := low, vel := 0 }
         else if high < m.pos then { pos := high, vel := 0 } else m
       let near := s.flagged a .limitApproach axis 0
       let far := s.flagged a .range axis 0
       let count := countOf (s.axis x) m.pos
       let fits := (s.axis x).countMin ≤ count ∧ count ≤ (s.axis x).countMax
       let soft := s.softStep x t m
       let range := s.convertStep x t m
       (fits → s.guarded x m.pos = false → s.convert x m =
         { position := count, velocity := velocityCounts (s.axis x) m.vel, hold := false }) ∧
       (¬fits ∨ s.guarded x m.pos = true → s.convert x m =
         { position := clampInt (s.axis x).countMin (s.axis x).countMax count, velocity := 0
           hold := true }) ∧
       (s.seq.motion.composing = false → soft = range) ∧
       (s.seq.motion.composing = true → low ≤ m.pos → m.pos ≤ high →
         soft = (s.removeCause .limitClamp x).convertStep x t m) ∧
       (s.seq.motion.composing = true → m.pos < low ∨ high < m.pos →
         (s.cond.mask.getLsbD 1 = true →
           soft = (near.caused .limitClamp x).convertStep x t (held m)) ∧
         (s.cond.mask.getLsbD 1 = false →
           near.endedFrom soft.1 (near.present.set x (held (near.present.get x))) (flag 1)
             .faulted (.condition .limitApproach) ∧
           soft.2 = (soft.1.commandedAt x t).map (soft.1.convert x))) ∧
       (s.seq.motion.running = false → range = (s, some (s.convert x m))) ∧
       (s.seq.motion.running = true → fits →
         range = (s.removeCause .rangeHold x, some (s.convert x m))) ∧
       (s.seq.motion.running = true → ¬fits →
         (s.cond.mask.getLsbD 2 = true →
           range = (far.caused .rangeHold x, some (s.convert x m))) ∧
         (s.cond.mask.getLsbD 2 = false →
           far.ended range.1 (flag 2) .faulted (.condition .range) ∧
           range.2 = (range.1.commandedAt x t).map (range.1.convert x))))) ∧
  (∀ (s : State) (x : Lane) (v : SampleFields) (hold : Bool) (l : LatestSample) (c : Int),
     s.servo.latest.get x = some l → s.commandedThen x (s.time.mount - v.age) = some c →
     s.planner.axes ≠ none → s.seq.motion ≠ .parked → s.seq.motion ≠ .alarm →
     (l.measured = none → s.errorStep x v hold = { s with
       servo.latest := s.servo.latest.set x
         (some { l with commanded := some c, error := none, holdMark := hold }) }) ∧
     ∀ angle, l.measured = some angle →
       let e := c - 256 * angle
       let u : State := { s with
         servo.latest := s.servo.latest.set x
           (some { l with commanded := some c, error := some e, holdMark := hold }) }
       let raised : Running → State := fun a => { u with
         seq.active := some { a with
           record.stats.maxError := a.record.stats.maxError.set x
             (max (a.record.stats.maxError.get x) (wholeMas e).natAbs) } }
       (s.seq.motion ∈ [.idle, .slewing, .stopping] → s.errorStep x v hold = u) ∧
       (s.seq.motion = .parking → s.errorStep x v hold = u.parkTest) ∧
       ∀ a, s.seq.active = some a →
         (s.seq.motion = .settling →
           s.errorStep x v hold = (raised a).settleTest x e v.braked) ∧
         (s.seq.motion = .tracking → s.errorStep x v hold = (raised a).trackTest x e) ∧
         (s.seq.motion = .degraded → s.errorStep x v hold =
           if s.servo.causes.trackError.any then (raised a).recoverTest x e v.braked
           else raised a)) ∧
  (∀ (s : State) (x : Lane) (a : Running) (e : Int) (braked : Bool), s.seq.active = some a →
     let now := s.time.mount
     let beyond : Nat → Bool := fun tolerance => decide (256 * tolerance < e.natAbs)
     let anew : Measurement := { beginTime := now, seen := ⟨false, false, false⟩ }
     (∀ m, s.seq.motion = .settling → s.servo.settle = some m →
       let seen := m.seen.set x true
       let late := beyond (s.axis x).settleTol || braked
       let done := seen.all && decide (m.beginTime + s.planner.globals.settleTime * 1000 ≤ now)
       (late = true → s.settleTest x e braked = { s with servo.settle := some anew }) ∧
       (late = false → done = false →
         s.settleTest x e braked = { s with servo.settle := some { m with seen } }) ∧
       (late = false → done = true → s.servo.causes.isEmpty = true → s.settleTest x e braked =
         State.tracked { s with servo.settle := none } a) ∧
       (late = false → done = true → s.servo.causes.isEmpty = false → s.settleTest x e braked =
         { s with
           servo.settle := none
           seq.motion := .degraded
           seq.spell := some
             { start := now, underrunSeen := s.servo.causes.has .underrunHold }
           rep := offerReport s.rep (.phaseChange .settling .degraded) now
             a.record.targetId })) ∧
     (s.seq.motion = .tracking →
       let u := s.flagged a .trackError (axisByte (some x)) 0
       (beyond (s.axis x).trackTol = false → s.trackTest x e = s) ∧
       (beyond (s.axis x).trackTol = true → s.cond.mask.getLsbD 3 = true → s.trackTest x e =
         { u.caused .trackError x with servo.recover := some anew }) ∧
       (beyond (s.axis x).trackTol = true → s.cond.mask.getLsbD 3 = false →
         u.ended (s.trackTest x e) { a with ctx.flags := a.ctx.flags ||| 8 } .faulted
           (.condition .trackError))) ∧
     (∀ m, s.seq.motion = .degraded → s.servo.recover = some m →
       let seen := m.seen.set x true
       let again : State := { s with servo.recover := some anew }
       let done := seen.all && decide (m.beginTime + s.planner.globals.recoverTime * 1000 ≤ now)
       (beyond (s.axis x).trackTol = true →
         s.recoverTest x e braked = again.caused .trackError x) ∧
       (beyond (s.axis x).trackTol = false → braked = true →
         s.recoverTest x e braked = again) ∧
       (beyond (s.axis x).trackTol = false → braked = false → done = false →
         s.recoverTest x e braked = { s with servo.recover := some { m with seen } }) ∧
       (beyond (s.axis x).trackTol = false → braked = false → done = true →
         s.recoverTest x e braked = State.lowered { s with servo.recover := none } a
           { s.servo.causes with trackError := ⟨false, false, false⟩ }))) ∧
  (∀ (s : State) (p : SlewPlan), s.seq.motion = .parking → s.planner.current = .park p →
     let standing := ∀ y, ∃ l m, s.servo.latest.get y = some l ∧ l.braked = false ∧
       l.measured = some m ∧ (m - (s.axis y).parkAngle).natAbs ≤ (s.axis y).settleTol
     (p.arrival ≤ s.time.mount → standing → s.parkTest = State.moved
       { s with
         planner.current := .none
         servo.watch := ⟨none, none, none⟩
         ports := .of (fun y => { s.ports.get y with
           setpoint := none, control := some (brakeFrame (s.axis y).node) }) } .parked) ∧
     (s.time.mount < p.arrival ∨ ¬standing → s.parkTest = s)) ∧
  (∀ (s : State) (x : Lane) (l : LatestSample), s.servo.latest.get x = some l →
     let every := (s.axis x).decimation
     let count := s.servo.telemetryCount.get x + 1
     let counted : Nat → State := fun n =>
       { s with servo.telemetryCount := s.servo.telemetryCount.set x n }
     (every = 0 → s.telemetryStep x = s) ∧
     (every ≠ 0 → count < every → s.telemetryStep x = counted count) ∧
     (every ≠ 0 → every ≤ count → s.site.telemetryDest = none →
       s.telemetryStep x = counted 0) ∧
     (every ≠ 0 → every ≤ count → s.site.telemetryDest ≠ none → s.telemetryStep x =
       { counted 0 with site.telemetry :=
         (if s.site.telemetry.length < 4 then s.site.telemetry else s.site.telemetry.drop 1) ++
           [{ axis := x, sampleTime := l.sampleTime, commanded := l.commanded.map wholeMas
              measured := l.measured, error := l.error.map wholeMas, state := s.seq.motion
              targetId := s.activeId, fault := l.fault, limitSwitch := l.limitSwitch
              braked := l.braked, holdMark := l.holdMark }] }))
end

