-- ==== Sys2Proof/Laws/State.lean ====
section
/-! SUPPORT. What each named update of the state leaves in every field it does not change: the lemmas that
later proofs rewrite with, so that none unfolds a record update. -/

namespace Sys2Proof.Machine

/-! ## Lanes -/

@[simp] theorem Lanes.get_set_self {α : Type} (l : Lanes α) (x : Lane) (a : α) :
    (l.set x a).get x = a := by cases x <;> rfl

theorem Lanes.get_set_of_ne {α : Type} (l : Lanes α) {x y : Lane} (a : α) (h : y ≠ x) :
    (l.set x a).get y = l.get y := by
  cases x <;> cases y <;> first | rfl | exact absurd rfl h

@[simp] theorem Lanes.get_of {α : Type} (f : Lane → α) (x : Lane) : (Lanes.of f).get x = f x := by
  cases x <;> rfl

@[simp] theorem Lanes.get_map {α β : Type} (f : α → β) (l : Lanes α) (x : Lane) :
    (l.map f).get x = f (l.get x) := by cases x <;> rfl

@[simp] theorem Lanes.get_const {α : Type} (a : α) (x : Lane) : (Lanes.const a).get x = a := by
  cases x <;> rfl

/-- A claim about every lane is a claim about the three. -/
theorem Lane.forall_iff {p : Lane → Prop} : (∀ x, p x) ↔ p .az ∧ p .el ∧ p .rot :=
  ⟨fun h => ⟨h _, h _, h _⟩, fun h x => by cases x <;> [exact h.1; exact h.2.1; exact h.2.2]⟩

/-! ## Updates of one block -/

@[simp] theorem State.report_fields (s : State) (d : ReportDetail) (i : Nat) :
    (s.report d i).time = s.time ∧ (s.report d i).seq = s.seq ∧
      (s.report d i).chains = s.chains ∧ (s.report d i).planner = s.planner ∧
      (s.report d i).corr = s.corr ∧ (s.report d i).guide = s.guide ∧
      (s.report d i).servo = s.servo ∧ (s.report d i).cond = s.cond ∧
      (s.report d i).ports = s.ports ∧ (s.report d i).site = s.site ∧
      (s.report d i).permit = s.permit ∧ (s.report d i).freeIndex = s.freeIndex ∧
      (s.report d i).pending = s.pending := by
  and_intros <;> rfl

@[simp] theorem State.report_rep (s : State) (d : ReportDetail) (i : Nat) :
    (s.report d i).rep = offerReport s.rep d s.time.mount i := rfl

@[simp] theorem State.setQueue_fields (s : State) (q : List TargetRecord) :
    (s.setQueue q).time = s.time ∧ (s.setQueue q).chains = s.chains ∧
      (s.setQueue q).planner = s.planner ∧ (s.setQueue q).corr = s.corr ∧
      (s.setQueue q).guide = s.guide ∧ (s.setQueue q).servo = s.servo ∧
      (s.setQueue q).cond = s.cond ∧ (s.setQueue q).ports = s.ports ∧
      (s.setQueue q).site = s.site ∧ (s.setQueue q).rep = s.rep ∧
      (s.setQueue q).permit = s.permit ∧ (s.setQueue q).freeIndex = s.freeIndex ∧
      (s.setQueue q).pending = s.pending := by
  and_intros <;> rfl

@[simp] theorem State.setQueue_seq (s : State) (q : List TargetRecord) :
    (s.setQueue q).seq.queue = q ∧ (s.setQueue q).seq.active = s.seq.active ∧
      (s.setQueue q).seq.shelf = s.seq.shelf ∧ (s.setQueue q).seq.outcomes = s.seq.outcomes ∧
      (s.setQueue q).seq.mode = s.seq.mode ∧ (s.setQueue q).seq.motion = s.seq.motion ∧
      (s.setQueue q).seq.hold = s.seq.hold ∧
      (s.setQueue q).seq.parkPending = s.seq.parkPending ∧
      (s.setQueue q).seq.starved =
        (s.seq.starved && decide (headId q = headId s.seq.queue)) ∧
      (s.setQueue q).seq.startHanded =
        (s.seq.startHanded && decide (headId q = headId s.seq.queue)) ∧
      (s.setQueue q).seq.expiryHanded =
        queuedIds q (fun r => s.seq.expiryHanded.contains r.targetId) ∧
      (s.setQueue q).seq.spell = s.seq.spell ∧ (s.setQueue q).seq.sup = s.seq.sup := by
  and_intros <;> rfl

@[simp] theorem State.mapActive_fields (s : State) (f : Running → Running) :
    (s.mapActive f).time = s.time ∧ (s.mapActive f).chains = s.chains ∧
      (s.mapActive f).planner = s.planner ∧ (s.mapActive f).corr = s.corr ∧
      (s.mapActive f).guide = s.guide ∧ (s.mapActive f).servo = s.servo ∧
      (s.mapActive f).cond = s.cond ∧ (s.mapActive f).ports = s.ports ∧
      (s.mapActive f).site = s.site ∧ (s.mapActive f).rep = s.rep ∧
      (s.mapActive f).permit = s.permit ∧ (s.mapActive f).freeIndex = s.freeIndex ∧
      (s.mapActive f).pending = s.pending := by
  and_intros <;> rfl

@[simp] theorem State.mapActive_seq (s : State) (f : Running → Running) :
    (s.mapActive f).seq.queue = s.seq.queue ∧
      (s.mapActive f).seq.active = s.seq.active.map f ∧
      (s.mapActive f).seq.shelf = s.seq.shelf ∧
      (s.mapActive f).seq.outcomes = s.seq.outcomes ∧ (s.mapActive f).seq.mode = s.seq.mode ∧
      (s.mapActive f).seq.motion = s.seq.motion ∧ (s.mapActive f).seq.hold = s.seq.hold ∧
      (s.mapActive f).seq.parkPending = s.seq.parkPending ∧
      (s.mapActive f).seq.starved = s.seq.starved ∧
      (s.mapActive f).seq.startHanded = s.seq.startHanded ∧
      (s.mapActive f).seq.expiryHanded = s.seq.expiryHanded ∧
      (s.mapActive f).seq.spell = s.seq.spell ∧
      (s.mapActive f).seq.sup = s.seq.sup := by
  and_intros <;> rfl

theorem State.mapStats_eq (s : State) (f : Statistics → Statistics) :
    s.mapStats f = s.mapActive (fun a => { a with record.stats := f a.record.stats }) := rfl

theorem State.mapContext_eq (s : State) (f : Context → Context) :
    s.mapContext f = s.mapActive (fun a => { a with ctx := f a.ctx }) := rfl

theorem State.mapGuide_eq (s : State) (f : GuideContext → GuideContext) :
    s.mapGuide f = s.mapActive (fun a => { a with ctx.guide := f a.ctx.guide }) := rfl

@[simp] theorem State.mapPort_fields (s : State) (x : Lane) (f : AxisPort → AxisPort) :
    (s.mapPort x f).time = s.time ∧ (s.mapPort x f).seq = s.seq ∧
      (s.mapPort x f).chains = s.chains ∧ (s.mapPort x f).planner = s.planner ∧
      (s.mapPort x f).corr = s.corr ∧ (s.mapPort x f).guide = s.guide ∧
      (s.mapPort x f).servo = s.servo ∧ (s.mapPort x f).cond = s.cond ∧
      (s.mapPort x f).site = s.site ∧ (s.mapPort x f).rep = s.rep ∧
      (s.mapPort x f).permit = s.permit ∧ (s.mapPort x f).freeIndex = s.freeIndex ∧
      (s.mapPort x f).pending = s.pending := by
  and_intros <;> rfl

@[simp] theorem State.mapPort_self (s : State) (x : Lane) (f : AxisPort → AxisPort) :
    (s.mapPort x f).ports.get x = f (s.ports.get x) := by simp [State.mapPort]

theorem State.mapPort_other (s : State) {x y : Lane} (f : AxisPort → AxisPort) (h : y ≠ x) :
    (s.mapPort x f).ports.get y = s.ports.get y := Lanes.get_set_of_ne _ _ h

@[simp] theorem State.respond_fields (s : State) (r : Request) (reply : Reply) :
    (s.respond r reply).time = s.time ∧ (s.respond r reply).seq = s.seq ∧
      (s.respond r reply).chains = s.chains ∧ (s.respond r reply).planner = s.planner ∧
      (s.respond r reply).corr = s.corr ∧ (s.respond r reply).guide = s.guide ∧
      (s.respond r reply).servo = s.servo ∧ (s.respond r reply).cond = s.cond ∧
      (s.respond r reply).ports = s.ports ∧ (s.respond r reply).rep = s.rep ∧
      (s.respond r reply).permit = s.permit ∧ (s.respond r reply).freeIndex = s.freeIndex ∧
      (s.respond r reply).pending = s.pending := by
  and_intros <;> rfl

@[simp] theorem State.respond_site (s : State) (r : Request) (reply : Reply) :
    (s.respond r reply).site.requests = s.site.requests ∧
      (s.respond r reply).site.responses = s.site.responses ++
        [{ dest := r.src, tag := r.tag, code := r.payload.headD 0, reply }] ∧
      (s.respond r reply).site.telemetry = s.site.telemetry ∧
      (s.respond r reply).site.returns = s.site.returns ∧
      (s.respond r reply).site.forwarding = s.site.forwarding ∧
      (s.respond r reply).site.tx = s.site.tx := by
  and_intros <;> rfl

/-! ## A departure (R20) -/

@[simp] theorem State.depart_fields (s : State) (r : TargetRecord) (v : Verdict) (why : Reason)
    (x : Option Lane) (p : Place) :
    (s.depart r v why x p).time = s.time ∧ (s.depart r v why x p).planner = s.planner ∧
      (s.depart r v why x p).corr = s.corr ∧ (s.depart r v why x p).guide = s.guide ∧
      (s.depart r v why x p).servo = s.servo ∧ (s.depart r v why x p).cond = s.cond ∧
      (s.depart r v why x p).ports = s.ports ∧ (s.depart r v why x p).site = s.site ∧
      (s.depart r v why x p).permit = s.permit ∧
      (s.depart r v why x p).freeIndex = s.freeIndex ∧
      (s.depart r v why x p).pending = s.pending ∧
      (s.depart r v why x p).chains = releaseChains s.chains r.targetId ∧
      (s.depart r v why x p).rep =
        offerReport s.rep (.targetOutcome v why x p) s.time.mount r.targetId := by
  and_intros <;> rfl

@[simp] theorem State.depart_seq (s : State) (r : TargetRecord) (v : Verdict) (why : Reason)
    (x : Option Lane) (p : Place) :
    (s.depart r v why x p).seq.queue = s.seq.queue ∧
      (s.depart r v why x p).seq.active = s.seq.active ∧
      (s.depart r v why x p).seq.shelf = s.seq.shelf ∧
      (s.depart r v why x p).seq.outcomes =
        pushOutcome s.seq.outcomes
          { record := r, verdict := v, reason := why, axis := x, time := s.time.mount, place := p } ∧
      (s.depart r v why x p).seq.mode = s.seq.mode ∧
      (s.depart r v why x p).seq.motion = s.seq.motion ∧
      (s.depart r v why x p).seq.hold = s.seq.hold ∧
      (s.depart r v why x p).seq.parkPending = s.seq.parkPending ∧
      (s.depart r v why x p).seq.starved = s.seq.starved ∧
      (s.depart r v why x p).seq.startHanded = s.seq.startHanded ∧
      (s.depart r v why x p).seq.expiryHanded = s.seq.expiryHanded ∧
      (s.depart r v why x p).seq.spell = s.seq.spell ∧
      (s.depart r v why x p).seq.sup = s.seq.sup := by
  and_intros <;> rfl

/-! ## Window expiries handed over (R165) -/

/-- A record is among the named ones exactly where it stands in the queue and is picked out. -/
theorem mem_queuedIds (q : List TargetRecord) (p : TargetRecord → Bool) (id : Nat) :
    id ∈ queuedIds q p ↔ ∃ r ∈ q, p r = true ∧ r.targetId = id := by
  simp [queuedIds, and_assoc]

/-- Handing expiries over changes the list of those handed over and nothing else. -/
theorem State.handExpiries_eq (s : State) : s.handExpiries = { s with
    seq.expiryHanded := if s.time.valid then queuedIds s.seq.queue (fun r =>
      windowPassed s.time.mount r || s.seq.expiryHanded.contains r.targetId)
      else s.seq.expiryHanded } := by
  unfold State.handExpiries
  split <;> rfl

/-- An event handed over for a queued record stays handed over, whatever mount time is. -/
theorem State.handExpiries_keeps (s : State) (r : TargetRecord) (hq : r ∈ s.seq.queue)
    (h : r.targetId ∈ s.seq.expiryHanded) : r.targetId ∈ s.handExpiries.seq.expiryHanded := by
  rw [State.handExpiries_eq]
  by_cases hv : s.time.valid = true
  · simpa [hv, mem_queuedIds] using ⟨r, hq, Or.inr h, rfl⟩
  · simpa [hv] using h

end Sys2Proof.Machine
end

