-- ==== Sys2Proof/Laws/Bytes.lean ====
section
/-! SUPPORT. Big-endian fields and frames: their lengths, and that reading a field gives the number that was
written into it. -/

namespace Sys2Proof.Machine

@[simp] theorem natBytes_length (w n : Nat) : (natBytes w n).length = w := by
  induction w with
  | zero => rfl
  | succ w ih => simp [natBytes, ih]

@[simp] theorem intBytes_length (w : Nat) (i : Int) : (intBytes w i).length = w := by
  simp [intBytes]

theorem beNat_append_aux (bs : List Byte) : ∀ a : Nat,
    bs.foldl (fun n b => n * 256 + b.toNat) a = a * 256 ^ bs.length + beNat bs := by
  induction bs with
  | nil => intro a; simp [beNat]
  | cons b bs ih =>
    intro a
    simp only [List.foldl_cons, beNat, List.length_cons]
    rw [ih, ih]
    ring

/-- The first byte is the most significant. -/
theorem beNat_cons (b : Byte) (bs : List Byte) :
    beNat (b :: bs) = b.toNat * 256 ^ bs.length + beNat bs := by
  simp only [beNat, List.foldl_cons]
  rw [beNat_append_aux]
  simp [beNat]

/-- Reading a field gives what was written, modulo its range. -/
theorem beNat_natBytes (w n : Nat) : beNat (natBytes w n) = n % 256 ^ w := by
  induction w with
  | zero => simp [natBytes, beNat, Nat.mod_one]
  | succ w ih =>
    have hb : (BitVec.ofNat 8 (n / 256 ^ w)).toNat = n / 256 ^ w % 256 := by
      simp [BitVec.toNat_ofNat]
    rw [natBytes, beNat_cons, natBytes_length, ih, hb, pow_succ, Nat.mod_mul]
    ring

theorem beNat_natBytes_of_lt {w n : Nat} (h : n < 256 ^ w) : beNat (natBytes w n) = n := by
  rw [beNat_natBytes, Nat.mod_eq_of_lt h]

/-- A field is read within its range. -/
theorem beNat_lt (bs : List Byte) : beNat bs < 256 ^ bs.length := by
  induction bs with
  | nil => simp [beNat]
  | cons b bs ih =>
    rw [beNat_cons, List.length_cons, pow_succ]
    have hb : b.toNat ≤ 255 := by have := b.isLt; omega
    have := Nat.mul_le_mul_right (256 ^ bs.length) hb
    omega

theorem natAt_lt (bs : List Byte) (o w : Nat) : natAt bs o w < 256 ^ w := by
  refine Nat.lt_of_lt_of_le (beNat_lt _) (Nat.pow_le_pow_right (by decide) ?_)
  simp only [fieldAt, List.length_take]
  exact Nat.min_le_left _ _

/-- A frame is 9 bytes longer on the line than its payload (section 10.3.1). -/
theorem frameWire_length (f : Frame) : (frameWire f).length = f.payload.length + 9 := by
  simp [frameWire, frameCovered, crcBytes]
  omega

end Sys2Proof.Machine
end

