-- ==== Sys2Proof/Laws/Chains.lean ====
section
/-! SUPPORT. The Segment Store's operations: which of them keep the headers' owners and lanes, and which
can raise the number of LOADED slots. -/

namespace Sys2Proof.Machine

/-- A chain's owner and lane. -/
def Chain.key (c : Chain) : Nat × Lane := (c.owner, c.lane)

@[simp] theorem Chain.retire_key (c : Chain) (t : Nat) : (c.retire t).key = c.key := rfl

@[simp] theorem Chain.append_key (c : Chain) (gs : List Segment) (now h : Nat) :
    (c.append gs now h).key = c.key := by
  unfold Chain.append; split <;> rfl

@[simp] theorem Chain.truncate_key (c : Chain) (t : Nat) : (c.truncate t).key = c.key := rfl

@[simp] theorem openChain_key (id : Nat) (x : Lane) : (openChain id x).key = (id, x) := rfl

/-- A change of one chain that keeps its owner and lane keeps the headers. -/
theorem mapChain_keys (cs : List Chain) (id : Nat) (x : Lane) {f : Chain → Chain}
    (h : ∀ c, (f c).key = c.key) : (mapChain cs id x f).map Chain.key = cs.map Chain.key := by
  simp only [mapChain, List.map_map]
  refine List.map_congr_left (fun c _ => ?_)
  simp only [Function.comp]
  split
  · exact h c
  · rfl

@[simp] theorem retireTarget_keys (cs : List Chain) (id t : Nat) :
    (retireTarget cs id t).map Chain.key = cs.map Chain.key := by
  simp only [retireTarget, List.map_map]
  refine List.map_congr_left (fun c _ => ?_)
  simp only [Function.comp]
  split <;> rfl

/-- Releasing a target's chains discards exactly its headers (R45). -/
theorem releaseChains_keys (cs : List Chain) (id : Nat) :
    (releaseChains cs id).map Chain.key = (cs.map Chain.key).filter (fun k => k.1 != id) := by
  simp only [releaseChains, List.filter_map]
  rfl

theorem Chain.retire_count (c : Chain) (t : Nat) : (c.retire t).count ≤ c.count := by
  simp only [Chain.retire, Chain.count]
  exact List.Sublist.length_le (List.dropWhile_sublist _)

theorem Chain.truncate_count (c : Chain) (t : Nat) : (c.truncate t).count ≤ c.count :=
  List.length_filter_le _ _

theorem Chain.append_count (c : Chain) (gs : List Segment) (now h : Nat) :
    (c.append gs now h).count = c.count + gs.length := by
  unfold Chain.append
  split
  · rename_i hg
    rw [List.getLast?_eq_none_iff.mp hg]
    rfl
  · simp [Chain.count]

theorem loadedSlots_map_le (cs : List Chain) {f : Chain → Chain}
    (h : ∀ c, (f c).count ≤ c.count) : loadedSlots (cs.map f) ≤ loadedSlots cs := by
  simp only [loadedSlots, List.map_map]
  exact List.sum_le_sum (fun c _ => h c)

theorem loadedSlots_retireTarget (cs : List Chain) (id t : Nat) :
    loadedSlots (retireTarget cs id t) ≤ loadedSlots cs := by
  refine loadedSlots_map_le cs (fun c => ?_)
  split
  · exact c.retire_count t
  · exact le_rfl

theorem loadedSlots_releaseChains (cs : List Chain) (id : Nat) :
    loadedSlots (releaseChains cs id) ≤ loadedSlots cs := by
  simp only [loadedSlots, releaseChains]
  exact List.Sublist.sum_le_sum (List.Sublist.map _ List.filter_sublist) (fun _ _ => Nat.zero_le _)

theorem loadedSlots_mapChain_le (cs : List Chain) (id : Nat) (x : Lane) {f : Chain → Chain}
    (h : ∀ c, (f c).count ≤ c.count) : loadedSlots (mapChain cs id x f) ≤ loadedSlots cs := by
  refine loadedSlots_map_le cs (fun c => ?_)
  split
  · exact h c
  · exact le_rfl

end Sys2Proof.Machine
end

