-- ==== Sys2Proof/Laws/Ops.lean ====
section
/-! SUPPORT. What each operation of Machine/Ops.lean can do, said once: its bounds, the fields it leaves,
and what it makes of those it changes. -/

namespace Sys2Proof.Machine

/-! ## Reports (R182, R183) -/

theorem offerReport_of_room {u : ReportUnit} (d : ReportDetail) (t i : Nat)
    (h : u.queue.length < Config.reportSize) :
    offerReport u d t i =
      { u with
        queue := u.queue ++ [{ detail := d, time := t, targetId := i,
                               precededByLoss := u.lossMarker }]
        lossMarker := false } := by simp only [offerReport, if_pos h]

theorem offerReport_of_full {u : ReportUnit} (d : ReportDetail) (t i : Nat)
    (h : Config.reportSize ≤ u.queue.length) :
    offerReport u d t i = { u with lost := true, lossMarker := true } := by
  simp only [offerReport, if_neg (Nat.not_lt.mpr h)]

theorem offerReport_length {u : ReportUnit} (d : ReportDetail) (t i : Nat)
    (h : u.queue.length ≤ Config.reportSize) :
    (offerReport u d t i).queue.length ≤ Config.reportSize := by
  unfold offerReport
  split
  · simp only [List.length_append, List.length_singleton]; omega
  · exact h

@[simp] theorem offerReport_dest (u : ReportUnit) (d : ReportDetail) (t i : Nat) :
    (offerReport u d t i).dest = u.dest := by unfold offerReport; split <;> rfl

/-! ## The outcome list (R21) -/

theorem pushOutcome_length {l : List OutcomeEntry} (e : OutcomeEntry)
    (h : l.length ≤ Config.outcomeSize) : (pushOutcome l e).length ≤ Config.outcomeSize := by
  unfold pushOutcome
  split <;> simp only [List.length_append, List.length_drop, List.length_singleton,
    Config.outcomeSize] at * <;> omega

theorem pushOutcome_getLast? (l : List OutcomeEntry) (e : OutcomeEntry) :
    (pushOutcome l e).getLast? = some e := by simp [pushOutcome]

/-! ## Departures from the queue and the shelf (R19, R20, R66) -/

@[simp] theorem State.departQueued_fields (s : State) (r : TargetRecord) (v : Verdict)
    (why : Reason) :
    (s.departQueued r v why).time = s.time ∧ (s.departQueued r v why).planner = s.planner ∧
      (s.departQueued r v why).corr = s.corr ∧ (s.departQueued r v why).guide = s.guide ∧
      (s.departQueued r v why).servo = s.servo ∧ (s.departQueued r v why).cond = s.cond ∧
      (s.departQueued r v why).ports = s.ports ∧ (s.departQueued r v why).site = s.site ∧
      (s.departQueued r v why).permit = s.permit ∧
      (s.departQueued r v why).freeIndex = s.freeIndex ∧
      (s.departQueued r v why).pending = s.pending ∧
      (s.departQueued r v why).chains = releaseChains s.chains r.targetId := by
  and_intros <;> rfl

@[simp] theorem State.departQueued_seq (s : State) (r : TargetRecord) (v : Verdict)
    (why : Reason) :
    (s.departQueued r v why).seq.queue =
        s.seq.queue.filter (fun q => q.targetId != r.targetId) ∧
      (s.departQueued r v why).seq.active = s.seq.active ∧
      (s.departQueued r v why).seq.shelf = s.seq.shelf ∧
      (s.departQueued r v why).seq.mode = s.seq.mode ∧
      (s.departQueued r v why).seq.motion = s.seq.motion ∧
      (s.departQueued r v why).seq.hold = s.seq.hold ∧
      (s.departQueued r v why).seq.parkPending = s.seq.parkPending ∧
      (s.departQueued r v why).seq.spell = s.seq.spell ∧
      (s.departQueued r v why).seq.sup = s.seq.sup := by
  and_intros <;> rfl

@[simp] theorem State.departShelved_fields (s : State) (e : Running) (v : Verdict)
    (why : Reason) :
    (s.departShelved e v why).time = s.time ∧ (s.departShelved e v why).planner = s.planner ∧
      (s.departShelved e v why).corr = s.corr ∧ (s.departShelved e v why).guide = s.guide ∧
      (s.departShelved e v why).servo = s.servo ∧ (s.departShelved e v why).cond = s.cond ∧
      (s.departShelved e v why).ports = s.ports ∧ (s.departShelved e v why).site = s.site ∧
      (s.departShelved e v why).permit = s.permit ∧
      (s.departShelved e v why).freeIndex = s.freeIndex ∧
      (s.departShelved e v why).pending = s.pending ∧
      (s.departShelved e v why).chains = releaseChains s.chains e.record.targetId := by
  and_intros <;> rfl

@[simp] theorem State.departShelved_seq (s : State) (e : Running) (v : Verdict) (why : Reason) :
    (s.departShelved e v why).seq.queue = s.seq.queue ∧
      (s.departShelved e v why).seq.active = s.seq.active ∧
      (s.departShelved e v why).seq.shelf =
        s.seq.shelf.filter (fun q => q.record.targetId != e.record.targetId) ∧
      (s.departShelved e v why).seq.mode = s.seq.mode ∧
      (s.departShelved e v why).seq.motion = s.seq.motion ∧
      (s.departShelved e v why).seq.hold = s.seq.hold ∧
      (s.departShelved e v why).seq.parkPending = s.seq.parkPending ∧
      (s.departShelved e v why).seq.starved = s.seq.starved ∧
      (s.departShelved e v why).seq.spell = s.seq.spell ∧
      (s.departShelved e v why).seq.sup = s.seq.sup := by
  and_intros <;> rfl

/-- Queued departures one after another touch the queue, the outcome list, the chains and the reports
only. -/
theorem State.departAllQueued_fields (rs : List TargetRecord) (v : Verdict) (why : Reason) :
    ∀ s : State,
      (s.departAllQueued rs v why).time = s.time ∧
      (s.departAllQueued rs v why).planner = s.planner ∧
      (s.departAllQueued rs v why).corr = s.corr ∧
      (s.departAllQueued rs v why).guide = s.guide ∧
      (s.departAllQueued rs v why).servo = s.servo ∧
      (s.departAllQueued rs v why).cond = s.cond ∧
      (s.departAllQueued rs v why).ports = s.ports ∧
      (s.departAllQueued rs v why).site = s.site ∧
      (s.departAllQueued rs v why).permit = s.permit ∧
      (s.departAllQueued rs v why).freeIndex = s.freeIndex ∧
      (s.departAllQueued rs v why).pending = s.pending ∧
      (s.departAllQueued rs v why).seq.active = s.seq.active ∧
      (s.departAllQueued rs v why).seq.shelf = s.seq.shelf ∧
      (s.departAllQueued rs v why).seq.mode = s.seq.mode ∧
      (s.departAllQueued rs v why).seq.motion = s.seq.motion ∧
      (s.departAllQueued rs v why).seq.hold = s.seq.hold ∧
      (s.departAllQueued rs v why).seq.parkPending = s.seq.parkPending ∧
      (s.departAllQueued rs v why).seq.spell = s.seq.spell ∧
      (s.departAllQueued rs v why).seq.sup = s.seq.sup := by
  induction rs with
  | nil => intro s; simp [State.departAllQueued]
  | cons r rs ih =>
    intro s
    have h := ih (s.departQueued r v why)
    simpa [State.departAllQueued] using h

/-- The queue after some queued departures: the records whose target_ids did not depart. -/
theorem State.departAllQueued_queue (rs : List TargetRecord) (v : Verdict) (why : Reason) :
    ∀ s : State, (s.departAllQueued rs v why).seq.queue =
      s.seq.queue.filter (fun q => decide (q.targetId ∉ rs.map (·.targetId))) := by
  induction rs with
  | nil => intro s; simp [State.departAllQueued]
  | cons r rs ih =>
    intro s
    have h := ih (s.departQueued r v why)
    simp only [State.departAllQueued, List.foldl_cons] at h ⊢
    rw [h, (State.departQueued_seq s r v why).1, List.filter_filter]
    congr 1
    funext q
    by_cases hq : q.targetId = r.targetId <;> simp [hq]

/-- Flushing the whole queue empties it (R19). -/
theorem State.departAllQueued_all (s : State) (v : Verdict) (why : Reason) :
    (s.departAllQueued s.seq.queue v why).seq.queue = [] := by
  rw [State.departAllQueued_queue, List.filter_eq_nil_iff]
  intro q hq
  simp only [List.mem_map, decide_eq_true_eq]
  exact fun h => h ⟨q, hq, rfl⟩

/-- Releasing one target's chains, in the form of `State.departed` (R45). -/
theorem releaseChains_eq (cs : List Chain) (id : Nat) :
    releaseChains cs id = cs.filter (fun c => decide (c.owner ∉ [id])) := by
  unfold releaseChains
  congr 1
  funext c
  by_cases h : c.owner = id <;> simp [h]

/-- One departure is `State.departed` of its one entry (R20). -/
theorem State.depart_eq (s : State) (r : TargetRecord) (v : Verdict) (why : Reason)
    (x : Option Lane) (p : Place) :
    s.depart r v why x p =
      s.departed [{ record := r, verdict := v, reason := why, axis := x, time := s.time.mount,
                    place := p }] := by
  simp only [State.depart, State.departed, releaseChains_eq, List.map_cons, List.map_nil,
    List.foldl_cons, List.foldl_nil]

/-- Some departures and then some more are all of them one after another. -/
theorem State.departed_append (s : State) (es ds : List OutcomeEntry) :
    (s.departed es).departed ds = s.departed (es ++ ds) := by
  simp only [State.departed, List.filter_filter, List.foldl_append, List.map_append]
  congr 2
  funext c
  by_cases h : c.owner ∈ es.map (·.record.targetId) <;>
    by_cases k : c.owner ∈ ds.map (·.record.targetId) <;> simp_all

theorem State.abandon_fold_eq (why : Reason) (es : List Running) :
    ∀ s : State, es.foldl (fun s e => s.departShelved e .abandoned why) s =
      { s.departed (leaving (es.map (·.record)) .abandoned why .shelved s.time.mount) with
        seq.shelf := s.seq.shelf.filter
          (fun q => decide (q.record.targetId ∉ es.map (·.record.targetId))) } := by
  induction es with
  | nil => intro s; simp [leaving, State.departed]
  | cons e es ih =>
    intro s
    have hf : ∀ q : Running, (decide (q.record.targetId ∉ es.map (·.record.targetId)) &&
        (q.record.targetId != e.record.targetId)) =
        decide (q.record.targetId ∉ (e :: es).map (·.record.targetId)) := by
      intro q
      by_cases h : q.record.targetId = e.record.targetId <;> simp [h]
    let d : OutcomeEntry := { record := e.record, verdict := .abandoned, reason := why, axis := none,
                              time := s.time.mount, place := .shelved }
    let ds := leaving (es.map (·.record)) .abandoned why .shelved s.time.mount
    have hs : s.departShelved e .abandoned why = { s.departed [d] with
        seq.shelf := s.seq.shelf.filter (fun q => q.record.targetId != e.record.targetId) } :=
      State.depart_eq _ _ _ _ _ _
    rw [List.foldl_cons, ih, hs]
    show ({ (s.departed [d]).departed ds with
        seq.shelf := (s.seq.shelf.filter (fun q => q.record.targetId != e.record.targetId)).filter
          (fun q => decide (q.record.targetId ∉ es.map (·.record.targetId))) } : State) =
      { s.departed ([d] ++ ds) with
        seq.shelf := s.seq.shelf.filter
          (fun q => decide (q.record.targetId ∉ (e :: es).map (·.record.targetId))) }
    rw [State.departed_append, List.filter_filter]
    simp only [hf]

/-- Abandoning the shelf leaves it empty, every entry gone from the top down (R64, R69, R72). -/
theorem State.abandonShelf_eq (s : State) (why : Reason) : s.abandonShelf why = s.shelfLeft why := by
  have hnil : s.seq.shelf.filter
      (fun q => decide (q.record.targetId ∉ s.seq.shelf.map (·.record.targetId))) = [] := by
    rw [List.filter_eq_nil_iff]
    intro q hq
    simp only [List.mem_map, decide_eq_true_eq]
    exact fun h => h ⟨q, hq, rfl⟩
  rw [State.abandonShelf, State.abandon_fold_eq, hnil]
  rfl

/-- Abandoning the shelf touches the shelf, the outcome list, the chains and the reports only. -/
theorem State.abandonShelf_spec (s : State) (why : Reason) :
    ∃ chains outcomes rep, s.abandonShelf why =
      { s with chains, rep, seq.outcomes := outcomes, seq.shelf := [] } := by
  rw [State.abandonShelf_eq]
  exact ⟨_, _, _, rfl⟩

/-! ## Departures of the active target (R20, R59) -/

/-- A change of the running target that leaves what the invariants read of it: its identity, its
lanes, its capture list and its offset stack. -/
def Running.keeps (f : Running → Running) : Prop :=
  ∀ a : Running, (f a).record.targetId = a.record.targetId ∧
    (f a).record.rotMode = a.record.rotMode ∧ (f a).record.captures = a.record.captures ∧
    (f a).ctx.stack = a.ctx.stack

theorem Running.keeps_id : Running.keeps (fun a => a) := fun _ => (by and_intros <;> rfl)

theorem Running.keeps_comp {f g : Running → Running} (hf : Running.keeps f)
    (hg : Running.keeps g) : Running.keeps (f ∘ g) := by
  intro a
  obtain ⟨hid, hrot, hcaptures, hstack⟩ := hg a
  simpa only [Function.comp, hid, hrot, hcaptures, hstack] using hf (g a)

theorem Running.keeps_stats (f : Statistics → Statistics) :
    Running.keeps (fun a => { a with record.stats := f a.record.stats }) :=
  fun _ => (by and_intros <;> rfl)

theorem Running.keeps_guide (f : GuideContext → GuideContext) :
    Running.keeps (fun a => { a with ctx.guide := f a.ctx.guide }) :=
  fun _ => (by and_intros <;> rfl)

/-- The end of a spell touches the active record's statistics and the spell only (R59). -/
theorem State.endSpell_eq (s : State) :
    ∃ f, Running.keeps f ∧
      s.endSpell = { s with seq.active := s.seq.active.map f, seq.spell := none } := by
  unfold State.endSpell
  split
  · rename_i h
    refine ⟨fun a => a, Running.keeps_id, ?_⟩
    rw [Option.map_id', ← h]
  · refine ⟨_, ?_, rfl⟩
    exact fun _ => (by and_intros <;> rfl)

/-- A departure from an empty slot is none. -/
theorem State.departActive_of_empty {s : State} (v : Verdict) (why : Reason) (x : Option Lane)
    (h : s.seq.active = none) : s.departActive v why x = s := by
  obtain ⟨f, -, he⟩ := State.endSpell_eq s
  simp [State.departActive, he, h]

/-- A departure from an occupied slot: the record leaves with its outcome, and the spell, the causes
and the measurements kept for it go (R20, R58, R59, R124, R125). -/
theorem State.departActive_of_occupied {s : State} (v : Verdict) (why : Reason)
    (x : Option Lane) {a : Running} (h : s.seq.active = some a) :
    ∃ f, Running.keeps f ∧
      s.departActive v why x =
        State.depart
          { s with
            seq.active := none
            seq.spell := none
            servo.causes := .empty
            servo.settle := none
            servo.recover := none }
          (f a).record v why x .active := by
  obtain ⟨f, hf, he⟩ := State.endSpell_eq s
  refine ⟨f, hf, ?_⟩
  simp only [State.departActive, he, h, Option.map_some]

/-- A departure from an occupied slot, exactly (R20, R58, R59, R124, R125). -/
theorem State.departActive_eq {s : State} (v : Verdict) (why : Reason) (x : Option Lane)
    {a : Running} (h : s.seq.active = some a) : s.departActive v why x = s.vacated a v why x := by
  unfold State.departActive State.endSpell State.vacated State.leavingRecord
  cases hs : s.seq.spell with
  | none => simp [h, hs, State.depart_eq, State.departed]
  | some sp => simp [h, State.mapStats_eq, State.mapActive, State.depart_eq, State.departed]

/-! ## The guide state (R138, R142) -/

/-- A guide report touches the Report Unit only. -/
theorem State.reportGuide_eq (s : State) (left : GuideState) (cause : GuideCause) :
    ∃ rep, s.reportGuide left cause = { s with rep } := by
  unfold State.reportGuide
  split
  · exact ⟨s.rep, rfl⟩
  · exact ⟨_, rfl⟩

/-- The move to ACQUIRING touches the active guide context, the free counter and the reports. -/
theorem State.startAcquiring_eq (s : State) (cause : GuideCause) :
    ∃ rep freeIndex f, Running.keeps f ∧
      s.startAcquiring cause =
        { s with rep, freeIndex, seq.active := s.seq.active.map f } := by
  unfold State.startAcquiring
  obtain ⟨rep, h⟩ := State.reportGuide_eq
    (s.mapGuide (fun g =>
      { g with
        state := .acquiring
        lastSeq := none
        watch := some { elapsed := 0, length := 3 * s.guideWatch * 1000000 } })).usedGuideFree
    .off cause
  rw [h]
  refine ⟨rep, _, _, ?_, rfl⟩
  exact fun _ => (by and_intros <;> rfl)

/-- The move to LOST touches the active guide context, the free counter and the reports. -/
theorem State.loseGuide_eq (s : State) (left : GuideState) (cause : GuideCause) :
    ∃ rep freeIndex f, Running.keeps f ∧
      s.loseGuide left cause =
        { s with rep, freeIndex, seq.active := s.seq.active.map f } := by
  unfold State.loseGuide
  obtain ⟨rep, h⟩ := State.reportGuide_eq
    (s.mapGuide (fun g =>
      { g with state := .lost, watch := none, lost := s.lostCount })).usedGuideFree left cause
  rw [h]
  refine ⟨rep, _, _, ?_, rfl⟩
  exact fun _ => (by and_intros <;> rfl)

/-! ## Entering a motion state (R47) -/

/-- A deferred commit touches the term tables and the reports only (R103). -/
theorem State.deferredCommit_eq (s : State) :
    ∃ rep corr, s.deferredCommit = { s with rep, corr } ∧
      (s.corr.commitPending = false → rep = s.rep ∧ corr = s.corr) ∧
      (s.corr.commitPending = true →
        corr = { s.corr with active := s.corr.staged, commitPending := false }) := by
  unfold State.deferredCommit
  split
  · rename_i h
    exact ⟨_, _, rfl, fun h' => absurd (h.symm.trans h') (by decide), fun _ => rfl⟩
  · rename_i h
    exact ⟨s.rep, s.corr, rfl, fun _ => ⟨rfl, rfl⟩, fun h' => absurd h' h⟩

/-- The entry to TRACKING touches the active target, the free counter and the reports only. -/
theorem State.enterTracking_eq (s : State) :
    ∃ rep freeIndex f, Running.keeps f ∧
      s.enterTracking = { s with rep, freeIndex, seq.active := s.seq.active.map f } := by
  have base : ∃ rep freeIndex f, Running.keeps f ∧
      s.mapStats (fun st =>
        { st with acquisitionTime := some (st.acquisitionTime.getD s.time.mount) }) =
        { s with rep, freeIndex, seq.active := s.seq.active.map f } := by
    refine ⟨s.rep, s.freeIndex, _, ?_, rfl⟩
    exact fun _ => (by and_intros <;> rfl)
  unfold State.enterTracking
  dsimp only
  split
  · split
    · obtain ⟨rep, freeIndex, f, hf, h⟩ := State.startAcquiring_eq
        (s.mapStats (fun st =>
          { st with acquisitionTime := some (st.acquisitionTime.getD s.time.mount) })) .tracking
      refine ⟨rep, freeIndex, _, Running.keeps_comp hf (Running.keeps_stats (fun st =>
          { st with acquisitionTime := some (st.acquisitionTime.getD s.time.mount) })), ?_⟩
      rw [h]
      simp only [State.mapStats_eq, State.mapActive, Option.map_map]
    · exact base
  · exact base

/-- Leaving a motion state touches the active record's statistics, the spell and the settle
measurement only (R59, R124). -/
theorem State.leaveMotion_eq (s : State) :
    ∃ f spell settle, Running.keeps f ∧
      s.leaveMotion =
        { s with seq.active := s.seq.active.map f, seq.spell := spell, servo.settle := settle } ∧
      (s.seq.motion = .degraded → spell = none) ∧
      (s.seq.motion ≠ .degraded → spell = s.seq.spell) ∧
      (s.seq.motion = .settling → settle = none) ∧
      (s.seq.motion ≠ .settling → settle = s.servo.settle) := by
  have stay : s = { s with
      seq.active := s.seq.active.map (fun a => a)
      seq.spell := s.seq.spell
      servo.settle := s.servo.settle } := by rw [Option.map_id']
  unfold State.leaveMotion
  split
  · rename_i h
    obtain ⟨f, hf, he⟩ := State.endSpell_eq s
    exact ⟨f, none, s.servo.settle, hf, he, fun _ => rfl, fun h' => absurd h h',
      fun h' => absurd (h.symm.trans h') (by decide), fun _ => rfl⟩
  · rename_i h
    refine ⟨fun a => a, s.seq.spell, none, Running.keeps_id, ?_,
      fun h' => absurd (h.symm.trans h') (by decide), fun _ => rfl, fun _ => rfl,
      fun h' => absurd h h'⟩
    rw [Option.map_id']
  all_goals
    rename_i h
    exact ⟨fun a => a, s.seq.spell, s.servo.settle, Running.keeps_id, stay,
      fun h' => absurd (h.symm.trans h') (by decide), fun _ => rfl,
      fun h' => absurd (h.symm.trans h') (by decide), fun _ => rfl⟩

/-- An entry to a motion state: the state is entered, and only the reports, the term tables (a
deferred commit), the active target's statistics and guide context, the free counter, the spell and
the settle measurement can change besides (R47, R56, R59, R103, R124). -/
theorem State.enter_eq (s : State) (m : MotionState) :
    ∃ rep corr freeIndex f spell settle, Running.keeps f ∧
      s.enter m =
        { s with
          rep
          corr
          freeIndex
          seq.active := s.seq.active.map f
          seq.motion := m
          seq.spell := spell
          servo.settle := settle } ∧
      (corr = s.corr ∨
        corr = { s.corr with active := s.corr.staged, commitPending := false }) ∧
      (m = .degraded → spell.isSome = true) ∧
      (m ≠ .degraded → s.seq.motion = .degraded → spell = none) ∧
      (m ≠ .degraded → s.seq.motion ≠ .degraded → spell = s.seq.spell) ∧
      (m = .settling → settle.isSome = true) ∧
      (m ≠ .settling → s.seq.motion = .settling → settle = none) ∧
      (m ≠ .settling → s.seq.motion ≠ .settling → settle = s.servo.settle) := by
  obtain ⟨f, spell, settle, hf, hl, h1, h2, h3, h4⟩ := State.leaveMotion_eq s
  have plain : ∀ n : MotionState, n ≠ .degraded → n ≠ .settling → ∀ rep corr freeIndex act,
      (∃ g, Running.keeps g ∧ act = s.seq.active.map g) → (corr = s.corr ∨
        corr = { s.corr with active := s.corr.staged, commitPending := false }) →
      ∃ rep' corr' freeIndex' f' spell' settle', Running.keeps f' ∧
        ({ s with
            rep
            corr
            freeIndex
            seq.active := act
            seq.motion := n
            seq.spell := spell
            servo.settle := settle } : State) =
          { s with
            rep := rep'
            corr := corr'
            freeIndex := freeIndex'
            seq.active := s.seq.active.map f'
            seq.motion := n
            seq.spell := spell'
            servo.settle := settle' } ∧
        (corr' = s.corr ∨
          corr' = { s.corr with active := s.corr.staged, commitPending := false }) ∧
        (n = .degraded → spell'.isSome = true) ∧
        (n ≠ .degraded → s.seq.motion = .degraded → spell' = none) ∧
        (n ≠ .degraded → s.seq.motion ≠ .degraded → spell' = s.seq.spell) ∧
        (n = .settling → settle'.isSome = true) ∧
        (n ≠ .settling → s.seq.motion = .settling → settle' = none) ∧
        (n ≠ .settling → s.seq.motion ≠ .settling → settle' = s.servo.settle) := by
    rintro n hn hn' rep corr freeIndex act ⟨g, hg, rfl⟩ hc
    exact ⟨rep, corr, freeIndex, g, spell, settle, hg, rfl, hc, fun h => absurd h hn, fun _ => h1,
      fun _ => h2, fun h => absurd h hn', fun _ => h3, fun _ => h4⟩
  unfold State.enter
  rw [hl]
  cases m
  case slewing | stopping | idle =>
    simp only
    obtain ⟨rep, corr, h, hc0, hc1⟩ := State.deferredCommit_eq (State.report
      { s with
        seq.active := s.seq.active.map f, seq.spell := spell, servo.settle := settle
        seq.motion := _ }
      _ _)
    rw [h]
    have hc : corr = s.corr ∨
        corr = { s.corr with active := s.corr.staged, commitPending := false } := by
      cases hp : s.corr.commitPending
      · exact Or.inl (hc0 hp).2
      · exact Or.inr (hc1 hp)
    refine plain _ ?_ ?_ rep corr s.freeIndex _ ⟨f, hf, rfl⟩ hc <;> decide
  case tracking =>
    simp only
    obtain ⟨rep, fi, g, hg, h⟩ := State.enterTracking_eq (State.report
      { s with
        seq.active := s.seq.active.map f, seq.spell := spell, servo.settle := settle
        seq.motion := .tracking }
      _ _)
    rw [h]
    exact plain .tracking (by decide) (by decide) rep s.corr fi _
      ⟨g ∘ f, Running.keeps_comp hg hf, Option.map_map ..⟩ (Or.inl rfl)
  case settling =>
    exact ⟨_, s.corr, s.freeIndex, f, spell, _, hf, rfl, Or.inl rfl, fun h => absurd h (by decide),
      fun _ => h1, fun _ => h2, fun _ => rfl, fun h => absurd rfl h, fun h => absurd rfl h⟩
  case degraded =>
    exact ⟨_, s.corr, s.freeIndex, f, _, settle, hf, rfl, Or.inl rfl, fun _ => rfl,
      fun h => absurd rfl h, fun h => absurd rfl h, fun h => absurd h (by decide), fun _ => h3,
      fun _ => h4⟩
  case parked | parking | alarm =>
    refine plain _ ?_ ?_ _ s.corr s.freeIndex _ ⟨f, hf, rfl⟩ (Or.inl rfl) <;> decide

end Sys2Proof.Machine
end

