-- ==== Sys2Proof/Laws/Requests.lean ====
section
/-! SUPPORT. What a step is, and what the Request Processor does with the request at the head of the buffer
(R173, R174): one lemma for each way it can go, and the rule by which a property passes from the meanings
to the step. -/

namespace Sys2Proof.Machine

/-! ## The step -/

/-- With a command in front, the step is that command's meaning on the rest. -/
theorem step_front {s : State} {c : Instr} {rest : List Instr} (h : s.pending = c :: rest) :
    step s = exec c { s with pending := rest } := by simp only [step, h]

/-- With no command, the step is the part's own due event. -/
theorem step_due {s : State} {c : Instr} (h : s.pending = []) (hd : s.nextDue = some c) :
    step s = exec c s := by simp only [step, h, hd]

/-- With no command and nothing due, the step is one microsecond. -/
theorem step_idle {s : State} (h : s.pending = []) (hd : s.nextDue = none) :
    step s = .next s.tick := by simp only [step, h, hd]

/-- A property that no field `pending` enters passes from the meanings and the tick to the step. -/
theorem step_keeps {P : State → Prop} (hq : ∀ s q, P s → P { s with pending := q })
    (he : ∀ c s t, P s → exec c s = .next t → P t) (ht : ∀ s, P s → P s.tick) {s t : State}
    (hs : P s) (h : step s = .next t) : P t := by
  cases hp : s.pending with
  | cons c rest => rw [step_front hp] at h; exact he c _ t (hq s rest hs) h
  | nil =>
    cases hd : s.nextDue with
    | some c => rw [step_due hp hd] at h; exact he c s t hs h
    | none => rw [step_idle hp hd] at h; cases h; exact ht s hs

/-- Every meaning answers a next state: no command stops the part. -/
theorem exec_next (c : Instr) (s : State) : ∃ t, exec c s = .next t := by
  cases c <;> exact ⟨_, rfl⟩

/-! ## Taking a request (R173, R174) -/

variable {cmd : Instr} {body : List Byte → State → State × Reply} {s : State} {r : Request}
  {rest : List Request} {code : Byte} {p : List Byte}

/-- An addressed request with room for its answer is taken: it leaves the buffer, its body acts, and
the answer joins the response queue (R173). -/
theorem takeRequest_asks (h : s.asks r rest code p) (hc : requestOf (code :: p) = cmd) :
    takeRequest cmd body s =
      (body p { s with site.requests := rest }).1.respond r
        (body p { s with site.requests := rest }).2 := by
  obtain ⟨hr, hp, hd, hl⟩ := h
  have ht : s.canTake r = true := by simp [State.canTake, hl]
  simp only [takeRequest, hr, hp, hc, ht, hd, and_self, if_true, if_false, List.tail_cons]

/-- A broadcast request that does not act when broadcast is discarded (R174). -/
theorem takeRequest_discards (hr : s.site.requests = r :: rest) (hd : r.dest = 0xFF)
    (hc : requestOf r.payload = cmd) (ha : actsBroadcast cmd = false) :
    takeRequest cmd body s = { s with site.requests := rest } := by
  simp [takeRequest, hr, hd, hc, ha, State.canTake]

/-- A broadcast request that acts when broadcast does so without an answer (R174). -/
theorem takeRequest_broadcast (hr : s.site.requests = r :: rest) (hd : r.dest = 0xFF)
    (hc : requestOf r.payload = cmd) (ha : actsBroadcast cmd = true) :
    takeRequest cmd body s = (body r.payload.tail { s with site.requests := rest }).1 := by
  simp [takeRequest, hr, hd, hc, ha, State.canTake]

/-- With the response queue full, an addressed request waits (R173). -/
theorem takeRequest_waits (hr : s.site.requests = r :: rest) (hd : r.dest ≠ 0xFF)
    (hl : Config.responseSize ≤ s.site.responses.length) : takeRequest cmd body s = s := by
  have ht : s.canTake r = false := by
    simp only [State.canTake, decide_eq_false hd, decide_eq_false (Nat.not_lt.mpr hl), Bool.or_self]
  simp [takeRequest, hr, ht]

/-- With no request in the buffer, or another one at its head, nothing happens (log 1). -/
theorem takeRequest_other (h : ∀ q qs, s.site.requests = q :: qs → requestOf q.payload ≠ cmd) :
    takeRequest cmd body s = s := by
  unfold takeRequest
  split
  · rfl
  · rename_i q qs hq
    simp [h q qs hq]

/-- A property passes through the taking of a request when the leaving of the buffer, the body and the
answer keep it. -/
theorem takeRequest_keeps {P : State → Prop}
    (hreq : ∀ s q, P s → q.length ≤ s.site.requests.length → P { s with site.requests := q })
    (hresp : ∀ s r reply, P s → s.site.responses.length < Config.responseSize →
      P (s.respond r reply))
    (hbody : ∀ p s, P s → P (body p s).1 ∧
      (body p s).1.site.responses.length ≤ s.site.responses.length)
    (hs : P s) : P (takeRequest cmd body s) := by
  unfold takeRequest
  split
  · exact hs
  · rename_i r rest hr
    have h0 : P { s with site.requests := rest } := hreq s rest hs (by simp [hr])
    split
    · rename_i hc
      dsimp only
      split
      · split
        · exact (hbody _ _ h0).1
        · exact h0
      · rename_i hd
        refine hresp _ _ _ (hbody _ _ h0).1 (Nat.lt_of_le_of_lt (hbody _ _ h0).2 ?_)
        have ht := hc.2
        simpa only [State.canTake, decide_eq_false hd, Bool.false_or, decide_eq_true_eq] using ht
    · exact hs

end Sys2Proof.Machine
end

