-- ==== Sys2Proof/Laws/Sequencer.lean ====
section
/-! SUPPORT. What the Sequencer's shared operations can do: where the activation test, the restores, the
end-of-target rule, Stop and Park, a fault and an alarm leave the motion state, the active slot and the
plan, and what they never touch. -/

namespace Sys2Proof.Machine

/-- The parts of the state that no activation, restore or end of a target touches. -/
structure State.Agrees (s t : State) : Prop where
  time : t.time = s.time
  guide : t.guide = s.guide
  cond : t.cond = s.cond
  ports : t.ports = s.ports
  site : t.site = s.site
  permit : t.permit = s.permit
  pending : t.pending = s.pending
  staged : t.corr.staged = s.corr.staged
  latest : t.servo.latest = s.servo.latest
  watch : t.servo.watch = s.servo.watch
  telemetryCount : t.servo.telemetryCount = s.servo.telemetryCount
  limits : t.planner.limits = s.planner.limits
  limitsLocked : t.planner.limitsLocked = s.planner.limitsLocked
  axes : t.planner.axes = s.planner.axes
  globals : t.planner.globals = s.planner.globals
  hold : t.seq.hold = s.seq.hold

theorem State.Agrees.refl (s : State) : s.Agrees s := by
  constructor <;> rfl

theorem State.Agrees.trans {s t u : State} (h : s.Agrees t) (k : t.Agrees u) : s.Agrees u := by
  cases h
  cases k
  constructor <;> simp only [*]

theorem State.enter_agrees (s : State) (m : MotionState) : s.Agrees (s.enter m) := by
  obtain ⟨rep, corr, fi, f, sp, st, -, he, hc, -⟩ := State.enter_eq s m
  rw [he]
  rcases hc with rfl | rfl <;> constructor <;> rfl

theorem State.enter_motion (s : State) (m : MotionState) : (s.enter m).seq.motion = m := by
  obtain ⟨rep, corr, fi, f, sp, st, -, he, -⟩ := State.enter_eq s m
  rw [he]

theorem State.enter_active (s : State) (m : MotionState) :
    (s.enter m).seq.active.isSome = s.seq.active.isSome := by
  obtain ⟨rep, corr, fi, f, sp, st, -, he, -⟩ := State.enter_eq s m
  rw [he]
  simp

theorem State.enter_current (s : State) (m : MotionState) :
    (s.enter m).planner = s.planner := by
  obtain ⟨rep, corr, fi, f, sp, st, -, he, -⟩ := State.enter_eq s m
  rw [he]

/-- An entry leaves the queue, the shelf, the outcome list, the chains and the Sequencer's settings. -/
theorem State.enter_lists (s : State) (m : MotionState) :
    (s.enter m).seq.queue = s.seq.queue ∧ (s.enter m).seq.shelf = s.seq.shelf ∧
      (s.enter m).seq.outcomes = s.seq.outcomes ∧ (s.enter m).chains = s.chains ∧
      (s.enter m).seq.mode = s.seq.mode ∧ (s.enter m).seq.parkPending = s.seq.parkPending ∧
      (s.enter m).seq.sup = s.seq.sup := by
  obtain ⟨rep, corr, fi, f, sp, st, -, he, -⟩ := State.enter_eq s m
  rw [he]
  and_intros <;> rfl

/-- An entry to a state that neither measures nor starts guiding, from one that leaves nothing behind, is
the change of state with its report and a waiting commit (R47, R103). -/
theorem State.enter_moved {s : State} {m : MotionState}
    (hm : m ∈ [.parked, .idle, .slewing, .stopping, .parking, .alarm])
    (hs : s.seq.motion = .degraded → s.seq.spell = none)
    (hset : s.seq.motion = .settling → s.servo.settle = none) : s.enter m = s.moved m := by
  have hl : s.leaveMotion = s := by
    unfold State.leaveMotion
    split
    · rename_i h
      simp only [State.endSpell, hs h]
    · rename_i h
      rw [← hset h]
    all_goals rfl
  unfold State.enter State.moved
  rw [hl]
  simp only [List.mem_cons, List.not_mem_nil, or_false] at hm
  rcases hm with rfl | rfl | rfl | rfl | rfl | rfl <;>
    simp only [List.mem_cons, List.not_mem_nil, or_false, reduceCtorEq, or_self, or_true,
      false_and, true_and, if_false, State.deferredCommit] <;>
    rfl

/-! ## Departures agree -/

theorem State.departQueued_agrees (s : State) (r : TargetRecord) (v : Verdict) (why : Reason) :
    s.Agrees (s.departQueued r v why) := by
  constructor <;> rfl

theorem State.departActive_agrees (s : State) (v : Verdict) (why : Reason) (x : Option Lane) :
    s.Agrees (s.departActive v why x) := by
  cases h : s.seq.active with
  | none => rw [State.departActive_of_empty v why x h]; exact .refl s
  | some a =>
    obtain ⟨f, -, he⟩ := State.departActive_of_occupied v why x h
    rw [he]
    constructor <;> rfl

/-- After a departure the slot is empty, and the motion state, the plan, the shelf, the queue, the
queue mode and park pending are as they were. -/
theorem State.departActive_slot (s : State) (v : Verdict) (why : Reason) (x : Option Lane) :
    let t := s.departActive v why x
    t.seq.active = none ∧ t.seq.motion = s.seq.motion ∧ t.planner = s.planner ∧
      t.seq.shelf = s.seq.shelf ∧ t.seq.queue = s.seq.queue ∧ t.seq.mode = s.seq.mode ∧
      t.seq.parkPending = s.seq.parkPending ∧ t.seq.sup = s.seq.sup := by
  cases h : s.seq.active with
  | none =>
    rw [State.departActive_of_empty v why x h]
    exact ⟨h, rfl, rfl, rfl, rfl, rfl, rfl, rfl⟩
  | some a =>
    obtain ⟨f, -, he⟩ := State.departActive_of_occupied v why x h
    rw [he]
    and_intros <;> rfl

theorem State.abandonShelf_agrees (s : State) (why : Reason) : s.Agrees (s.abandonShelf why) := by
  obtain ⟨chains, outcomes, rep, h⟩ := State.abandonShelf_spec s why
  rw [h]
  constructor <;> rfl

/-! ## The slot taken (R54, R65) -/

/-- A slew that fills the slot. -/
def State.slews (t : State) : Prop :=
  t.seq.motion = .slewing ∧ t.seq.active.isSome = true ∧ ∃ p, t.planner.current = .slew p

/-- Nothing moved: the motion state, who is active and the plan are as they were. -/
def State.stays (s t : State) : Prop :=
  t.seq.motion = s.seq.motion ∧ t.seq.active = s.seq.active ∧ t.planner = s.planner

theorem State.takeSlot_slews (s : State) (a : Running) (p : SlewPlan) :
    (s.takeSlot a p).slews := by
  unfold State.takeSlot
  exact ⟨State.enter_motion _ _, by rw [State.enter_active]; rfl,
    p, by rw [State.enter_current]⟩

theorem State.takeSlot_agrees (s : State) (a : Running) (p : SlewPlan) :
    s.Agrees (s.takeSlot a p) := by
  unfold State.takeSlot
  refine State.Agrees.trans ?_ (State.enter_agrees _ _)
  constructor <;> rfl

/-! ## The activation test (R51 to R54) -/

/-- Where the test may not run, nothing changes: steps 1 to 4 fail silently (R51). -/
theorem activationTest_silent (inRule : Bool) (o : Lanes Motion) (n : Nat) (s : State)
    (h : ∀ r rest, s.seq.queue = r :: rest → s.mayActivate inRule r = false) :
    activationTest inRule o n s = s := by
  cases n with
  | zero => rfl
  | succ n =>
    unfold activationTest
    split
    · rfl
    · rename_i r rest hq
      simp [h r rest hq]

theorem State.starve_agrees (s : State) (r : TargetRecord) (t : Nat) (c : Lanes Bool) :
    s.Agrees (s.starve r t c) ∧ s.stays (s.starve r t c) := by
  unfold State.starve
  split
  · exact ⟨.refl s, rfl, rfl, rfl⟩
  · exact ⟨(by constructor <;> rfl), rfl, rfl, rfl⟩

/-- The test either leaves the motion as it is or starts a slew; it touches nothing else of what
`Agrees` lists (R51 to R54). -/
theorem activationTest_spec (inRule : Bool) (o : Lanes Motion) :
    ∀ (n : Nat) (s : State), s.Agrees (activationTest inRule o n s) ∧
      (s.stays (activationTest inRule o n s) ∨ (activationTest inRule o n s).slews) := by
  intro n
  induction n with
  | zero => intro s; exact ⟨.refl s, Or.inl ⟨rfl, rfl, rfl⟩⟩
  | succ n ih =>
    intro s
    unfold activationTest
    split
    · exact ⟨.refl s, Or.inl ⟨rfl, rfl, rfl⟩⟩
    · rename_i r rest hq
      split
      · dsimp only
        have h0 : s.Agrees { s with chains := retireTarget s.chains r.targetId s.time.mount } := by
          constructor <;> rfl
        split
        · have h := State.starve_agrees
            { s with chains := retireTarget s.chains r.targetId s.time.mount } r ‹Nat›
          exact ⟨h0.trans (h _).1, Or.inl (h _).2⟩
        · have h := ih (State.departQueued
            { s with chains := retireTarget s.chains r.targetId s.time.mount } r .abandoned
            .noTrajectory)
          exact ⟨(h0.trans (State.departQueued_agrees _ _ _ _)).trans h.1,
            h.2.imp (fun k => k) (fun k => k)⟩
        · split
          · refine ⟨h0.trans (State.Agrees.trans ?_ (State.takeSlot_agrees _ _ _)),
              Or.inr (State.takeSlot_slews _ _ _)⟩
            constructor <;> rfl
          · have h := State.starve_agrees
              { s with chains := retireTarget s.chains r.targetId s.time.mount } r
            exact ⟨h0.trans (h _ _).1, Or.inl (h _ _).2⟩
      · exact ⟨.refl s, Or.inl ⟨rfl, rfl, rfl⟩⟩

/-- Entry to IDLE leads to IDLE without a plan, or on to a slew (R48, R51). -/
theorem State.enterIdle_spec (s : State) (hold : Lanes Int) :
    (s.enterIdle hold).slews ∨
      ((s.enterIdle hold).seq.motion = .idle ∧
        (s.enterIdle hold).seq.active.isSome = s.seq.active.isSome ∧
        (s.enterIdle hold).planner.current = .none) := by
  unfold State.enterIdle State.testActivation
  generalize he : State.enter { s with seq.hold := hold, planner.current := .none } .idle = t
  rcases (activationTest_spec false t.holdMotion t.seq.queue.length t).2 with ⟨h1, h2, h3⟩ | h
  · right
    rw [h1, h2, h3, ← he]
    exact ⟨State.enter_motion _ _, State.enter_active _ _, by rw [State.enter_current]⟩
  · exact Or.inl h

/-! ## The end-of-target rule (R64, R65) -/

/-- What an end of the active target comes to: a slew to the next target, a park slew, or a stop
profile, the last two with an empty slot (R64). -/
def State.ends (t : State) : Prop :=
  t.slews ∨
    (t.seq.motion = .parking ∧ t.seq.active = none ∧ ∃ p, t.planner.current = .park p) ∨
    (t.seq.motion = .stopping ∧ t.seq.active = none ∧ ∃ p, t.planner.current = .stop p)

theorem State.startPark_spec (s : State) (o : Lanes Motion) :
    s.Agrees (s.startPark o) ∧ (s.startPark o).seq.motion = .parking ∧
      (s.startPark o).seq.active.isSome = s.seq.active.isSome ∧
      (s.startPark o).seq.parkPending = false ∧
      (s.startPark o).planner.current = .park (s.parkPlan o) := by
  unfold State.startPark
  refine ⟨State.Agrees.trans ?_ (State.enter_agrees _ _), State.enter_motion _ _,
    State.enter_active _ _, (State.enter_lists _ _).2.2.2.2.2.1, by rw [State.enter_current]⟩
  constructor <;> rfl

theorem State.startStop_spec (s : State) (o : Lanes Motion) :
    s.Agrees (s.startStop o) ∧ (s.startStop o).seq.motion = .stopping ∧
      (s.startStop o).seq.active.isSome = s.seq.active.isSome ∧
      (s.startStop o).planner.current = .stop (s.stopPlan o) := by
  unfold State.startStop
  refine ⟨State.Agrees.trans ?_ (State.enter_agrees _ _), State.enter_motion _ _,
    State.enter_active _ _, by rw [State.enter_current]⟩
  constructor <;> rfl

/-- The restores either fill the slot with a slew or leave the motion as it was (R65). -/
theorem restoreShelf_spec (o : Lanes Motion) :
    ∀ (n : Nat) (s : State), s.Agrees (restoreShelf o n s) ∧
      (s.stays (restoreShelf o n s) ∨ (restoreShelf o n s).slews) := by
  intro n
  induction n with
  | zero => intro s; exact ⟨.refl s, Or.inl ⟨rfl, rfl, rfl⟩⟩
  | succ n ih =>
    intro s
    unfold restoreShelf
    split
    · exact ⟨.refl s, Or.inl ⟨rfl, rfl, rfl⟩⟩
    · rename_i e rest hq
      dsimp only
      have h0 : s.Agrees { s with
          seq.shelf := rest
          chains := retireTarget s.chains e.record.targetId s.time.mount } := by
        constructor <;> rfl
      have hf := ih (State.depart { s with
          seq.shelf := rest
          chains := retireTarget s.chains e.record.targetId s.time.mount }
        e.record .abandoned .noTrajectory none .shelved)
      have hd : s.Agrees (State.depart { s with
          seq.shelf := rest
          chains := retireTarget s.chains e.record.targetId s.time.mount }
        e.record .abandoned .noTrajectory none .shelved) := by
        constructor <;> rfl
      split
      · split
        · exact ⟨h0.trans (State.takeSlot_agrees _ _ _), Or.inr (State.takeSlot_slews _ _ _)⟩
        · exact ⟨hd.trans hf.1, hf.2.imp (fun k => k) (fun k => k)⟩
      · exact ⟨hd.trans hf.1, hf.2.imp (fun k => k) (fun k => k)⟩
      · exact ⟨hd.trans hf.1, hf.2.imp (fun k => k) (fun k => k)⟩

/-- The end-of-target rule, from an empty slot, comes to one of its three ends (R64). -/
theorem State.endRule_spec (s : State) (o : Lanes Motion) (h : s.seq.active = none) :
    s.Agrees (s.endRule o) ∧ (s.endRule o).ends := by
  have h0 : s.Agrees { s with seq.sup.graceCount := none } := by
    constructor <;> rfl
  have notSome : ∀ t : State, ¬ t.seq.active.isSome = true → t.seq.active = none := by
    intro t ht
    cases k : t.seq.active with
    | none => rfl
    | some a => simp [k] at ht
  unfold State.endRule
  dsimp only
  split
  · obtain ⟨chains, outcomes, rep, ha⟩ :=
      State.abandonShelf_spec { s with seq.sup.graceCount := none } .lapse
    obtain ⟨k1, k2, k3, -, k5⟩ := State.startPark_spec
      (State.abandonShelf { s with seq.sup.graceCount := none } .lapse) o
    refine ⟨(h0.trans (State.abandonShelf_agrees _ _)).trans k1, Or.inr (Or.inl ⟨k2, ?_, _, k5⟩)⟩
    apply notSome
    rw [k3, ha]
    simp [h]
  · have hr := restoreShelf_spec o s.seq.shelf.length { s with seq.sup.graceCount := none }
    revert hr
    generalize restoreShelf o s.seq.shelf.length { s with seq.sup.graceCount := none } = t
    intro hr
    split
    · rename_i hs
      rcases hr.2 with hk | hk
      · exact absurd hs (by rw [hk.2.1, h]; simp)
      · exact ⟨h0.trans hr.1, Or.inl hk⟩
    · rename_i hs
      have hq := activationTest_spec true o t.seq.queue.length t
      revert hq
      generalize activationTest true o t.seq.queue.length t = u
      intro hq
      split
      · rename_i hu
        rcases hq.2 with hk | hk
        · exact absurd hu (by rw [hk.2.1]; exact hs)
        · exact ⟨(h0.trans hr.1).trans hq.1, Or.inl hk⟩
      · rename_i hu
        obtain ⟨k1, k2, k3, k4⟩ := State.startStop_spec u o
        refine ⟨((h0.trans hr.1).trans hq.1).trans k1, Or.inr (Or.inr ⟨k2, ?_, _, k4⟩)⟩
        exact notSome _ (by rw [k3]; exact hu)

/-- An end of the active target, whatever its outcome and wherever the next plan starts (R64). -/
theorem State.endActiveFrom_spec (s : State) (o : Lanes Motion) (v : Verdict) (why : Reason) :
    s.Agrees (s.endActiveFrom o v why) ∧ (s.endActiveFrom o v why).ends := by
  obtain ⟨h1, h2⟩ := State.endRule_spec (s.departActive v why none) o
    (State.departActive_slot s v why none).1
  exact ⟨(State.departActive_agrees s v why none).trans h1, h2⟩

/-- An end of the active target, whatever its outcome (R64). -/
theorem State.endActive_spec (s : State) (v : Verdict) (why : Reason) :
    s.Agrees (s.endActive v why) ∧ (s.endActive v why).ends :=
  State.endActiveFrom_spec s s.present v why

/-- Stop or Park in a running state ends in STOPPING with an empty slot and shelf and the queue held
(R69, R70). -/
theorem State.haltRun_spec (s : State) (why : Reason) :
    s.Agrees (s.haltRun why) ∧ (s.haltRun why).seq.motion = .stopping ∧
      (s.haltRun why).seq.active = none ∧ (s.haltRun why).seq.shelf = [] ∧
      (s.haltRun why).seq.mode = .hold ∧ (s.haltRun why).seq.sup.graceCount = none ∧
      ∃ p, (s.haltRun why).planner.current = .stop p := by
  have hd := State.departActive_slot s .withdrawn why none
  obtain ⟨chains, outcomes, rep, ha⟩ :=
    State.abandonShelf_spec (s.departActive .withdrawn why none) why
  have hag := (State.departActive_agrees s .withdrawn why none).trans
    (State.abandonShelf_agrees _ why)
  unfold State.haltRun
  dsimp only
  revert ha hag
  generalize (s.departActive .withdrawn why none).abandonShelf why = t
  intro ha hag
  obtain ⟨k1, k2, k3, k4⟩ := State.startStop_spec
    { t with seq.mode := .hold, seq.sup.graceCount := none } s.present
  have hl : ∀ o : Lanes Motion, _ := fun o => State.enter_lists
    { ({ t with seq.mode := .hold, seq.sup.graceCount := none } : State) with
      planner.current := .stop (State.stopPlan
        { t with seq.mode := .hold, seq.sup.graceCount := none } o) } .stopping
  have hl' := hl s.present
  refine ⟨hag.trans (State.Agrees.trans ?_ k1), k2, ?_, ?_, ?_, ?_, _, k4⟩
  · constructor <;> rfl
  · have hn : t.seq.active = none := by rw [ha]; exact hd.1
    exact Option.isNone_iff_eq_none.mp
      (Option.isSome_eq_false_iff.mp (k3.trans (congrArg Option.isSome hn)))
  · exact hl'.2.1.trans (by rw [ha])
  · exact hl'.2.2.2.2.1
  · exact congrArg (·.graceCount) hl'.2.2.2.2.2.2

/-! ## Conditions and alarms (R148, R155) -/

/-- A flagged condition touches the active context's flags and the reports only (R148). -/
theorem State.flagCondition_eq (s : State) (c : Condition) (q : Byte) (n : Nat) :
    ∃ rep f, Running.keeps f ∧
      s.flagCondition c q n = { s with rep, seq.active := s.seq.active.map f } := by
  unfold State.flagCondition
  split
  · rename_i h
    exact ⟨s.rep, fun a => a, Running.keeps_id, by rw [Option.map_id']⟩
  · dsimp only
    split
    · refine ⟨s.rep, _, ?_, rfl⟩
      exact fun _ => (by and_intros <;> rfl)
    · refine ⟨_, _, ?_, rfl⟩
      exact fun _ => (by and_intros <;> rfl)

/-- A masked occurrence, or one with the slot empty, is flagged only (R148). -/
theorem State.raiseCondition_masked {s : State} {c : Condition} (q : Byte) (n : Nat)
    (h : marks s.cond.mask c = true ∨ s.seq.active = none) :
    s.raiseCondition c q n = s.flagCondition c q n := by
  unfold State.raiseCondition
  rcases h with h | h <;> simp [h]

/-- An unmasked occurrence on an active target is flagged and taken as a fault (R148). -/
theorem State.raiseCondition_unmasked {s : State} {c : Condition} (q : Byte) (n : Nat)
    (h : marks s.cond.mask c = false) (ha : s.seq.active.isSome = true) :
    s.raiseCondition c q n = (s.flagCondition c q n).endActive .faulted (.condition c) := by
  unfold State.raiseCondition
  have hn : s.seq.active.isNone = false := by
    cases k : s.seq.active with
    | none => simp [k] at ha
    | some a => rfl
  simp [h, hn]

/-- An entry to ALARM ends the run: the slot and the shelf empty, the queue held, no plan, the encoder
watches stopped, and BRAKE in each control slot with no SETPOINT waiting (R72, R128, R131). -/
theorem State.enterAlarm_spec (s : State) (k : AlarmKind) (x : Option Lane) :
    let t := s.enterAlarm k x
    t.seq.motion = .alarm ∧ t.seq.active = none ∧ t.seq.shelf = [] ∧ t.seq.mode = .hold ∧
      t.seq.parkPending = false ∧ t.seq.sup.graceCount = none ∧ t.planner.current = .none ∧
      t.servo.watch = .const none ∧ t.cond = s.cond ∧ t.time = s.time ∧ t.site = s.site ∧
      t.permit = s.permit ∧ t.pending = s.pending ∧
      ∀ y : Lane, (t.ports.get y).setpoint = none ∧
        (t.ports.get y).control = some (brakeFrame (s.axis y).node) ∧
        (t.ports.get y).service = (s.ports.get y).service := by
  have hd := State.departActive_slot s .faulted (.byAlarm k) x
  have hg := State.departActive_agrees s .faulted (.byAlarm k) x
  obtain ⟨chains, outcomes, rep', ha⟩ :=
    State.abandonShelf_spec (s.departActive .faulted (.byAlarm k) x) .aborted
  have hag := hg.trans (State.abandonShelf_agrees _ .aborted)
  unfold State.enterAlarm
  dsimp only
  revert ha hag
  generalize (s.departActive .faulted (.byAlarm k) x).abandonShelf .aborted = t
  intro ha hag
  obtain ⟨rep, corr, fi, f, sp, st, -, he, -⟩ := State.enter_eq
    { t with
      seq.mode := .hold
      seq.parkPending := false
      seq.sup.graceCount := none
      planner.current := .none
      servo.watch := .const none
      servo.latest := t.servo.latest.map (Option.map (fun l : LatestSample =>
        { l with seenSinceAlarm := false })) } .alarm
  rw [he]
  have hn : t.seq.active = none := by rw [ha]; exact hd.1
  have hax : ∀ y, t.axis y = s.axis y := fun y => by unfold State.axis; rw [hag.axes]
  refine ⟨rfl, ?_, by rw [ha]; rfl, rfl, rfl, rfl, rfl, rfl,
    hag.cond, hag.time, hag.site, hag.permit, hag.pending, fun y => ?_⟩
  · simp [State.alarmPorts, hn]
  · simp only [State.alarmPorts, Lanes.get_of]
    refine ⟨trivial, ?_, ?_⟩
    · rw [← hax y]; rfl
    · exact congrArg (fun l => (Lanes.get l y).service) hag.ports

/-- An alarm leaves the part in ALARM with a first cause (R155). -/
theorem State.raiseAlarm_motion (s : State) (k : AlarmKind) (x : Option Lane) :
    (s.raiseAlarm k x).seq.motion = .alarm := by
  unfold State.raiseAlarm
  split
  · rename_i h
    split <;> exact h
  · exact (State.enterAlarm_spec _ k x).1

end Sys2Proof.Machine
end

