-- ==== Sys2Proof/Laws/Servo.lean ====
section
/-! SUPPORT. What the operations of a sample can do to the motion state, the active slot and the plan: the
degrade causes, the occurrences of conditions, and the steps that end no target. -/

namespace Sys2Proof.Machine

/-- A move among the composing states, or none: the plan and whether the slot is occupied stay. -/
def State.moves (s t : State) : Prop :=
  s.Agrees t ∧ t.planner = s.planner ∧ t.seq.active.isSome = s.seq.active.isSome ∧
    (t.seq.motion = s.seq.motion ∨
      (s.seq.motion.composing = true ∧ t.seq.motion.composing = true))

theorem State.moves.refl (s : State) : s.moves s := ⟨.refl s, rfl, rfl, Or.inl rfl⟩

theorem State.moves.trans {s t u : State} (h : s.moves t) (k : t.moves u) : s.moves u := by
  refine ⟨h.1.trans k.1, k.2.1.trans h.2.1, k.2.2.1.trans h.2.2.1, ?_⟩
  rcases h.2.2.2 with h' | h' <;> rcases k.2.2.2 with k' | k'
  · exact Or.inl (k'.trans h')
  · exact Or.inr ⟨h' ▸ k'.1, k'.2⟩
  · exact Or.inr ⟨h'.1, k' ▸ h'.2⟩
  · exact Or.inr ⟨h'.1, k'.2⟩

theorem State.enter_moves (s : State) (m : MotionState) (h : s.seq.motion.composing = true)
    (hm : m.composing = true) : s.moves (s.enter m) :=
  ⟨State.enter_agrees s m, State.enter_current s m, State.enter_active s m,
    Or.inr ⟨h, by rw [State.enter_motion]; exact hm⟩⟩

/-- A cause added moves TRACKING to DEGRADED and no other state (R58). -/
theorem State.addCause_moves (s : State) (c : DegradeCause) (x : Lane) :
    s.moves (s.addCause c x) := by
  unfold State.addCause
  dsimp only
  split
  · rename_i h
    refine State.moves.trans ?_ (State.enter_moves _ _ (by rw [h]; rfl) rfl)
    exact ⟨(by constructor <;> rfl), rfl, rfl, Or.inl rfl⟩
  · exact ⟨(by constructor <;> rfl), rfl, rfl, Or.inl rfl⟩

/-- A cause lowered moves DEGRADED to SETTLING or TRACKING and no other state (R60). -/
theorem State.lowerCause_moves (s : State) (c : DegradeCause) (l : Lanes Bool) :
    s.moves (s.lowerCause c l) := by
  unfold State.lowerCause
  dsimp only
  split
  · rename_i h
    refine State.moves.trans ?_ (State.enter_moves _ _ (by rw [h.1]; rfl) ?_)
    · exact ⟨(by constructor <;> rfl), rfl, rfl, Or.inl rfl⟩
    · split <;> rfl
  · exact ⟨(by constructor <;> rfl), rfl, rfl, Or.inl rfl⟩

theorem State.removeCause_moves (s : State) (c : DegradeCause) (x : Lane) :
    s.moves (s.removeCause c x) := by
  unfold State.removeCause
  split
  · exact State.lowerCause_moves _ _ _
  · exact .refl s

theorem State.flagCondition_moves (s : State) (c : Condition) (q : Byte) (n : Nat) :
    s.moves (s.flagCondition c q n) := by
  obtain ⟨rep, f, -, he⟩ := State.flagCondition_eq s c q n
  rw [he]
  exact ⟨(by constructor <;> rfl), rfl,
    by simp, Or.inl rfl⟩

/-- An occurrence either is only flagged or ends the active target (R148). -/
theorem State.raiseCondition_spec (s : State) (c : Condition) (q : Byte) (n : Nat) :
    s.Agrees (s.raiseCondition c q n) ∧
      (s.moves (s.raiseCondition c q n) ∨ (s.raiseCondition c q n).ends) := by
  cases hm : marks s.cond.mask c
  · cases ha : s.seq.active with
    | none =>
      rw [State.raiseCondition_masked q n (Or.inr ha)]
      exact ⟨(State.flagCondition_moves s c q n).1, Or.inl (State.flagCondition_moves s c q n)⟩
    | some a =>
      rw [State.raiseCondition_unmasked q n hm (by rw [ha]; rfl)]
      have h := State.endActive_spec (s.flagCondition c q n) .faulted (.condition c)
      exact ⟨(State.flagCondition_moves s c q n).1.trans h.1, Or.inr h.2⟩
  · rw [State.raiseCondition_masked q n (Or.inl hm)]
    exact ⟨(State.flagCondition_moves s c q n).1, Or.inl (State.flagCondition_moves s c q n)⟩

/-- A LIMIT_APPROACH occurrence either is only flagged or ends the active target from the clamped present
motions (R93, R148). -/
theorem State.occurLimit_spec (s : State) (x : Lane) :
    s.Agrees (s.occurLimit x).1 ∧
      (((s.occurLimit x).2 = false ∧ s.moves (s.occurLimit x).1) ∨
        ((s.occurLimit x).2 = true ∧ (s.occurLimit x).1.ends)) := by
  have hf := State.flagCondition_moves s .limitApproach (axisByte (some x)) 0
  unfold State.occurLimit
  dsimp only
  split
  · exact ⟨hf.1, Or.inl ⟨rfl, hf⟩⟩
  · have h := State.endActiveFrom_spec (s.flagCondition .limitApproach (axisByte (some x)) 0)
      (State.clampedPresent (s.flagCondition .limitApproach (axisByte (some x)) 0) x) .faulted
      (.condition .limitApproach)
    exact ⟨hf.1.trans h.1, Or.inr ⟨rfl, h.2⟩⟩

/-- An effective-offset change moves TRACKING to SETTLING and no other state (R57). -/
theorem State.offsetChanged_moves (s : State) : s.moves s.offsetChanged := by
  unfold State.offsetChanged
  split
  · rename_i h
    exact State.enter_moves s .settling (by rw [h]; rfl) rfl
  · exact ⟨(by constructor <;> rfl), rfl, rfl, Or.inl rfl⟩
  all_goals exact .refl s

/-- The setpoint slot takes the newest SETPOINT, and nothing else changes (R130). -/
theorem State.placeSetpoint_eq (s : State) (x : Lane) (tag : Byte) (p : Option Setpoint) :
    ∃ ports, s.placeSetpoint x tag p = { s with ports } ∧
      (p = none → ports = s.ports) ∧
      ∀ sp, p = some sp →
        (ports.get x).setpoint = some (setpointFrame (s.axis x).node tag sp) ∧
        ∀ y, y ≠ x → ports.get y = s.ports.get y := by
  cases p with
  | none => exact ⟨s.ports, rfl, fun _ => rfl, fun _ h => by cases h⟩
  | some sp =>
    refine ⟨_, rfl, fun h => (by cases h), fun q h => ?_⟩
    cases h
    refine ⟨by rw [Lanes.get_set_self], fun y hy => Lanes.get_set_of_ne _ _ hy⟩

/-- No commanded motion exists in PARKED and ALARM, so no SETPOINT is formed there (R119). -/
theorem State.commandedAt_rest (s : State) (x : Lane) (t : Nat)
    (h : s.seq.motion = .parked ∨ s.seq.motion = .alarm) : s.commandedAt x t = none := by
  unfold State.commandedAt
  rcases h with h | h <;> rw [h]

/-! ## The hold of a masked underrun (R44, R84) -/

@[simp] theorem State.holdLane_fields (s : State) (x : Lane) (p : Option Int) :
    (s.holdLane x p).time = s.time ∧ (s.holdLane x p).seq = s.seq ∧
      (s.holdLane x p).chains = s.chains ∧ (s.holdLane x p).planner = s.planner ∧
      (s.holdLane x p).corr = s.corr ∧ (s.holdLane x p).guide = s.guide ∧
      (s.holdLane x p).cond = s.cond ∧ (s.holdLane x p).ports = s.ports ∧
      (s.holdLane x p).site = s.site ∧ (s.holdLane x p).rep = s.rep ∧
      (s.holdLane x p).permit = s.permit ∧ (s.holdLane x p).freeIndex = s.freeIndex ∧
      (s.holdLane x p).pending = s.pending := by
  and_intros <;> rfl

/-- Holding a lane, or letting it go, is no change of a degrade cause. -/
@[simp] theorem State.holdLane_cause (s : State) (x : Lane) (p : Option Int) (c : DegradeCause) :
    (s.holdLane x p).servo.causes.get c = s.servo.causes.get c := by cases c <;> rfl

theorem State.holdLane_moves (s : State) (x : Lane) (p : Option Int) : s.moves (s.holdLane x p) :=
  ⟨(by constructor <;> rfl), rfl, rfl, Or.inl rfl⟩

/-- A held chain reads as the held position with velocity 0, at every time. -/
@[simp] theorem Chain.heldAt_crossRead (c : Chain) (p : Int) (t : Nat) :
    (c.heldAt p).crossRead t = { pos := p, vel := 0 } := by
  simp [Chain.heldAt, Chain.crossRead, Chain.valueAt, pickSegment]

/-- Where no hold stands, the present composition is the composition at mount time. -/
theorem State.heldComposition_free (s : State) (a : Running) (x : Lane)
    (h : s.servo.causes.hold x = none) :
    s.heldComposition a x = s.composition a x s.time.mount := by
  unfold State.heldComposition
  rw [h]

end Sys2Proof.Machine
end

