-- ==== Sys2Proof/Laws/Links.lean ====
section
/-! SUPPORT. What a receiver, a transmitter and their ports can do: a byte read back from its character, a
line that comes in parts, and the fields that a receiver's move leaves. -/

namespace Sys2Proof.Machine

/-! ## Characters (R168) -/

/-- A character gives its byte back. -/
@[simp] theorem charByte_lineChar (b : Byte) : charByte (lineChar b) = b := by
  revert b; decide +kernel

/-- A character that is sent begins with its start bit. -/
theorem lineChar_wellFormed (b : Byte) : (LineInput.char (lineChar b)).wellFormed = true := by
  revert b; decide +kernel

/-! ## Receivers (R169) -/

/-- A line that comes in two parts is taken one after the other. -/
theorem rxRun_append (r : RxState) (l m : List LineInput) :
    rxRun r (l ++ m) =
      ((rxRun (rxRun r l).1 m).1, (rxRun r l).2 ++ (rxRun (rxRun r l).1 m).2) := by
  induction l generalizing r with
  | nil => rfl
  | cons i l ih => simp only [List.cons_append, rxRun, ih, List.append_assoc]

/-- Bytes in FRAME that leave the frame unfinished are collected: the header while it is short, and
the payload and CRC of a length field of at most 240. -/
theorem rxByte_collects (bytes : List Byte) (idle : Nat) (b : Byte)
    (h : (bytes ++ [b]).length < 6 ∨ (natAt (bytes ++ [b]) 4 2 ≤ Config.payloadSize ∧
      (bytes ++ [b]).length < natAt (bytes ++ [b]) 4 2 + 8)) :
    rxByte (.frame bytes idle) b = (.frame (bytes ++ [b]) 0, none) := by
  show rxCollected (bytes ++ [b]) = _
  unfold rxCollected
  split
  · rfl
  · rename_i h6
    rcases h with h | ⟨h, h'⟩
    · exact absurd h h6
    · rw [if_neg (Nat.not_lt.2 h), if_pos h']

@[simp] theorem RxState.bounded_hunt : RxState.bounded .hunt := by simp [RxState.bounded]

@[simp] theorem RxState.bounded_frame (bytes : List Byte) (idle : Nat) :
    RxState.bounded (.frame bytes idle) ↔
      bytes.length < Config.payloadSize + 8 ∧ idle < 2 := by
  simp [RxState.bounded]

@[simp] theorem RxState.bounded_waitIdle (idle : Nat) :
    RxState.bounded (.waitIdle idle) ↔ idle < 2 := by
  simp [RxState.bounded]

/-- What a receiver in FRAME has collected fits a frame (R171). -/
theorem rxCollected_bounded (bytes : List Byte) : (rxCollected bytes).1.bounded := by
  unfold rxCollected
  repeat' split
  all_goals simp only [RxState.bounded_hunt, RxState.bounded_frame, RxState.bounded_waitIdle]
  all_goals simp only [Config.payloadSize] at *
  all_goals omega

/-- A receiver that takes a byte stays within what a frame can hold (R171). -/
theorem rxByte_bounded (r : RxState) (b : Byte) : (rxByte r b).1.bounded := by
  cases r with
  | hunt =>
    show (if b = 0xA5 then RxState.frame [] 0 else .hunt).bounded
    split <;> simp [Config.payloadSize]
  | frame bytes idle => exact rxCollected_bounded _
  | waitIdle idle => simp [rxByte]

/-- Idle time adds up: two idle stretches on end are one, where the first does not end what it meets (R169). -/
theorem rxIdle_add {r t : RxState} {m : Nat} (n : Nat) (h : rxIdle r m = (t, none)) :
    rxIdle t n = rxIdle r (m + n) := by
  cases r with
  | hunt => cases h; rfl
  | frame bytes idle =>
    simp only [rxIdle] at h
    split at h <;> cases h
    simp only [rxIdle, Nat.add_assoc]
  | waitIdle idle =>
    simp only [rxIdle, Prod.mk.injEq, and_true] at h
    split at h <;> subst h
    · simp only [rxIdle]
      rw [if_pos (by omega)]
    · simp only [rxIdle, Nat.add_assoc]

/-- Idle time hands on nothing but a Truncation (R169). -/
theorem rxIdle_event (r : RxState) (n : Nat) :
    (rxIdle r n).2 = none ∨ (rxIdle r n).2 = some (.discarded .truncation) := by
  unfold rxIdle
  repeat' split
  all_goals simp

/-- Idle time keeps what a receiver holds, with less than 2 byte times of it counted (R169). -/
theorem rxIdle_bounded {r : RxState} (n : Nat) (h : r.bounded) : (rxIdle r n).1.bounded := by
  unfold rxIdle
  repeat' split
  all_goals simp_all

/-- No input makes a receiver hold more than a frame has (R169, R171). -/
theorem rxNext_bounded (r : RxState) (i : LineInput) (h : r.bounded) : (rxNext r i).1.bounded := by
  cases i with
  | char c => exact rxByte_bounded r _
  | quiet n => exact rxIdle_bounded n h

theorem rxRun_bounded (l : List LineInput) (r : RxState) (h : r.bounded) :
    (rxRun r l).1.bounded := by
  induction l generalizing r with
  | nil => exact h
  | cons i l ih => exact ih _ (rxNext_bounded r i h)

/-- A receiver's move leaves every part of the state but the ports. -/
@[simp] theorem State.setReceiver_fields (s : State) (p : Port) (r : RxState) :
    (s.setReceiver p r).time = s.time ∧ (s.setReceiver p r).seq = s.seq ∧
      (s.setReceiver p r).chains = s.chains ∧ (s.setReceiver p r).planner = s.planner ∧
      (s.setReceiver p r).corr = s.corr ∧ (s.setReceiver p r).guide = s.guide ∧
      (s.setReceiver p r).servo = s.servo ∧ (s.setReceiver p r).cond = s.cond ∧
      (s.setReceiver p r).rep = s.rep ∧ (s.setReceiver p r).permit = s.permit ∧
      (s.setReceiver p r).freeIndex = s.freeIndex ∧
      (s.setReceiver p r).pending = s.pending := by
  cases p <;> and_intros <;> rfl

@[simp] theorem State.receiver_setReceiver (s : State) (p : Port) (r : RxState) :
    (s.setReceiver p r).receiver p = r := by
  cases p with
  | site => rfl
  | axis x => cases x <;> rfl

/-- A receiver put into the state it has changes nothing. -/
@[simp] theorem State.setReceiver_self (s : State) (p : Port) :
    s.setReceiver p (s.receiver p) = s := by
  cases p with
  | site => rfl
  | axis x => cases x <;> rfl

/-- A line on which a receiver finds nothing only moves that receiver. -/
theorem State.receiveLine_silent {s : State} {p : Port} {input : List LineInput}
    (h : (rxRun (s.receiver p) input).2 = []) :
    s.receiveLine p input = s.setReceiver p (rxRun (s.receiver p) input).1 := by
  unfold State.receiveLine
  dsimp only
  rw [h]
  rfl

/-- A line on which a receiver finds one thing moves that receiver, and that one thing is taken. -/
theorem State.receiveLine_one {s : State} {p : Port} {input : List LineInput} {e : RxEvent}
    (h : (rxRun (s.receiver p) input).2 = [e]) :
    s.receiveLine p input = State.takeRx p (s.setReceiver p (rxRun (s.receiver p) input).1) e := by
  unfold State.receiveLine
  dsimp only
  rw [h]
  rfl

/-- Idle time on a line is what a byte time of the part's own clock brings to its receiver: the receiver
moves, and a truncated frame is counted (R169, log 3). -/
theorem State.receiveLine_quiet_site (s : State) :
    s.receiveLine .site [.quiet 1] = { s with
      site.rx := (rxIdle s.site.rx 1).1
      site.linkErrors := tickErrors s.site.rx s.site.linkErrors } := by
  unfold tickErrors
  rcases rxIdle_event s.site.rx 1 with h | h <;>
    simp [State.receiveLine, rxRun, rxNext, State.receiver, h, State.setReceiver, State.takeRx,
      State.countError]

theorem State.receiveLine_quiet_axis (s : State) (x : Lane) :
    s.receiveLine (.axis x) [.quiet 1] = s.mapPort x (fun p => { p with
      rx := (rxIdle p.rx 1).1, linkErrors := tickErrors p.rx p.linkErrors }) := by
  unfold tickErrors
  rcases rxIdle_event (s.ports.get x).rx 1 with h | h <;>
    cases x <;>
    simp_all [State.receiveLine, rxRun, rxNext, State.receiver, State.setReceiver, State.takeRx,
      State.countError, State.mapPort, Lanes.get, Lanes.set]

/-- WAIT_IDLE ignores every character (R169). -/
theorem rxRun_waitIdle (cs : List LineChar) :
    rxRun (.waitIdle 0) (cs.map .char) = (.waitIdle 0, []) := by
  induction cs with
  | nil => rfl
  | cons c cs ih => simp only [List.map_cons, rxRun, rxNext, rxByte, ih]; rfl

/-! ## Transmitters (R129, R168) -/

/-- A line with nothing in flight is idle (R168). -/
theorem Transmitter.line_idle {l : Transmitter} (h : l.inFlight = none) :
    l.line = idleChar := by
  unfold Transmitter.line
  rw [h]
  rfl

/-- A frame that starts puts its start byte on the line (R168, R171). -/
theorem startFrame_line (f : Frame) : (startFrame f).line = lineChar 0xA5 := rfl

/-- A transmitter that ends a frame is free after the gap (R129, R168). -/
theorem Transmitter.finish_of_some {l : Transmitter} (h : l.inFlight ≠ none) :
    l.finish = { inFlight := none, gap := 2 } := by
  unfold Transmitter.finish
  cases hl : l.inFlight with
  | none => exact absurd hl h
  | some f => rfl

end Sys2Proof.Machine
end

