-- ==== Sys2Proof/Laws/PerInstr.lean ====
section
/-! SUPPORT. Statements made command by command, over the commands as syntax. -/

namespace Sys2Proof.Laws

/-- A command's request code, where it has one, names that command, whatever parameters follow it
(R180). -/
def RequestCodes.Statement (c : Instr) : Prop :=
  ∀ code p, Machine.requestCode c = some code → Machine.requestOf (code :: p) = c

theorem RequestCodes.submitTarget : RequestCodes.Statement .submitTarget :=
  fun _ _ h => by cases h; rfl

theorem RequestCodes.submitOpportunity : RequestCodes.Statement .submitOpportunity :=
  fun _ _ h => by cases h; rfl

theorem RequestCodes.withdrawTarget : RequestCodes.Statement .withdrawTarget :=
  fun _ _ h => by cases h; rfl

theorem RequestCodes.flushQueue : RequestCodes.Statement .flushQueue := fun _ _ h => by cases h; rfl

theorem RequestCodes.runQueue : RequestCodes.Statement .runQueue := fun _ _ h => by cases h; rfl

theorem RequestCodes.holdQueue : RequestCodes.Statement .holdQueue := fun _ _ h => by cases h; rfl

theorem RequestCodes.readTarget : RequestCodes.Statement .readTarget := fun _ _ h => by cases h; rfl

theorem RequestCodes.readOutcome : RequestCodes.Statement .readOutcome :=
  fun _ _ h => by cases h; rfl

theorem RequestCodes.readCaptures : RequestCodes.Statement .readCaptures :=
  fun _ _ h => by cases h; rfl

theorem RequestCodes.adjustDwell : RequestCodes.Statement .adjustDwell :=
  fun _ _ h => by cases h; rfl

theorem RequestCodes.appendSegments : RequestCodes.Statement .appendSegments :=
  fun _ _ h => by cases h; rfl

theorem RequestCodes.closeChain : RequestCodes.Statement .closeChain := fun _ _ h => by cases h; rfl

theorem RequestCodes.truncateChain : RequestCodes.Statement .truncateChain :=
  fun _ _ h => by cases h; rfl

theorem RequestCodes.readChain : RequestCodes.Statement .readChain := fun _ _ h => by cases h; rfl

theorem RequestCodes.unpark : RequestCodes.Statement .unpark := fun _ _ h => by cases h; rfl

theorem RequestCodes.park : RequestCodes.Statement .park := fun _ _ h => by cases h; rfl

theorem RequestCodes.stop : RequestCodes.Statement .stop := fun _ _ h => by cases h; rfl

theorem RequestCodes.clearAlarm : RequestCodes.Statement .clearAlarm := fun _ _ h => by cases h; rfl

theorem RequestCodes.writeTerm : RequestCodes.Statement .writeTerm := fun _ _ h => by cases h; rfl

theorem RequestCodes.deleteTerm : RequestCodes.Statement .deleteTerm := fun _ _ h => by cases h; rfl

theorem RequestCodes.commitTerms : RequestCodes.Statement .commitTerms :=
  fun _ _ h => by cases h; rfl

theorem RequestCodes.readTerms : RequestCodes.Statement .readTerms := fun _ _ h => by cases h; rfl

theorem RequestCodes.pushOffset : RequestCodes.Statement .pushOffset := fun _ _ h => by cases h; rfl

theorem RequestCodes.popOffset : RequestCodes.Statement .popOffset := fun _ _ h => by cases h; rfl

theorem RequestCodes.replaceTopOffset : RequestCodes.Statement .replaceTopOffset :=
  fun _ _ h => by cases h; rfl

theorem RequestCodes.clearOffsets : RequestCodes.Statement .clearOffsets :=
  fun _ _ h => by cases h; rfl

theorem RequestCodes.readOffsets : RequestCodes.Statement .readOffsets :=
  fun _ _ h => by cases h; rfl

theorem RequestCodes.configureGuide : RequestCodes.Statement .configureGuide :=
  fun _ _ h => by cases h; rfl

theorem RequestCodes.startGuiding : RequestCodes.Statement .startGuiding :=
  fun _ _ h => by cases h; rfl

theorem RequestCodes.stopGuiding : RequestCodes.Statement .stopGuiding :=
  fun _ _ h => by cases h; rfl

theorem RequestCodes.setMasks : RequestCodes.Statement .setMasks := fun _ _ h => by cases h; rfl

theorem RequestCodes.clearConditions : RequestCodes.Statement .clearConditions :=
  fun _ _ h => by cases h; rfl

theorem RequestCodes.readConditions : RequestCodes.Statement .readConditions :=
  fun _ _ h => by cases h; rfl

theorem RequestCodes.loadAxes : RequestCodes.Statement .loadAxes := fun _ _ h => by cases h; rfl

theorem RequestCodes.loadLimits : RequestCodes.Statement .loadLimits := fun _ _ h => by cases h; rfl

theorem RequestCodes.lockLimits : RequestCodes.Statement .lockLimits := fun _ _ h => by cases h; rfl

theorem RequestCodes.loadForwarding : RequestCodes.Statement .loadForwarding :=
  fun _ _ h => by cases h; rfl

theorem RequestCodes.setReportDestination : RequestCodes.Statement .setReportDestination :=
  fun _ _ h => by cases h; rfl

theorem RequestCodes.enableSupervision : RequestCodes.Statement .enableSupervision :=
  fun _ _ h => by cases h; rfl

theorem RequestCodes.setTime : RequestCodes.Statement .setTime := fun _ _ h => by cases h; rfl

theorem RequestCodes.setTimeAtPulse : RequestCodes.Statement .setTimeAtPulse :=
  fun _ _ h => by cases h; rfl

theorem RequestCodes.readTime : RequestCodes.Statement .readTime := fun _ _ h => by cases h; rfl

theorem RequestCodes.peekTime : RequestCodes.Statement .peekTime := fun _ _ h => by cases h; rfl

theorem RequestCodes.readStatus : RequestCodes.Statement .readStatus := fun _ _ h => by cases h; rfl

theorem RequestCodes.resetController : RequestCodes.Statement .resetController :=
  fun _ _ h => by cases h; rfl

theorem RequestCodes.unknownRequest : RequestCodes.Statement .unknownRequest :=
  fun _ _ h => by cases h

theorem RequestCodes.requestFrameReception (f : Frame) : RequestCodes.Statement (.requestFrameReception f) :=
  fun _ _ h => by cases h

theorem RequestCodes.guideFrame (f : Frame) : RequestCodes.Statement (.guideFrame f) :=
  fun _ _ h => by cases h

theorem RequestCodes.sample (x : Lane) (f : Frame) : RequestCodes.Statement (.sample x f) :=
  fun _ _ h => by cases h

theorem RequestCodes.proxyServiceFrame (f : Frame) : RequestCodes.Statement (.proxyServiceFrame f) :=
  fun _ _ h => by cases h

theorem RequestCodes.serviceReply (x : Lane) (f : Frame) : RequestCodes.Statement (.serviceReply x f) :=
  fun _ _ h => by cases h

theorem RequestCodes.linkError (p : Port) (input : List LineInput) :
    RequestCodes.Statement (.linkError p input) :=
  fun _ _ h => by cases h

theorem RequestCodes.siteTransmitStart : RequestCodes.Statement .siteTransmitStart :=
  fun _ _ h => by cases h

theorem RequestCodes.axisTransmitStart (x : Lane) : RequestCodes.Statement (.axisTransmitStart x) :=
  fun _ _ h => by cases h

theorem RequestCodes.pinReset (straps : BitVec 3) (permit : Bool) : RequestCodes.Statement (.pinReset straps permit) :=
  fun _ _ h => by cases h

theorem RequestCodes.permitLost : RequestCodes.Statement .permitLost := fun _ _ h => by cases h

theorem RequestCodes.pulseEdge : RequestCodes.Statement .pulseEdge := fun _ _ h => by cases h

theorem RequestCodes.shutterEdge (e : ShutterEdge) : RequestCodes.Statement (.shutterEdge e) :=
  fun _ _ h => by cases h

theorem RequestCodes.encoderSilent (x : Lane) : RequestCodes.Statement (.encoderSilent x) :=
  fun _ _ h => by cases h

theorem RequestCodes.supervisionLapse : RequestCodes.Statement .supervisionLapse :=
  fun _ _ h => by cases h

theorem RequestCodes.graceExpiry : RequestCodes.Statement .graceExpiry := fun _ _ h => by cases h

theorem RequestCodes.guideWatchExpiry : RequestCodes.Statement .guideWatchExpiry :=
  fun _ _ h => by cases h

theorem RequestCodes.guideLost : RequestCodes.Statement .guideLost := fun _ _ h => by cases h

theorem RequestCodes.dwellCompletion : RequestCodes.Statement .dwellCompletion :=
  fun _ _ h => by cases h

theorem RequestCodes.slewCompletion : RequestCodes.Statement .slewCompletion :=
  fun _ _ h => by cases h

theorem RequestCodes.stopCompletion : RequestCodes.Statement .stopCompletion :=
  fun _ _ h => by cases h

theorem RequestCodes.windowExpiry (targetId : Nat) : RequestCodes.Statement (.windowExpiry targetId) :=
  fun _ _ h => by cases h

theorem RequestCodes.startTimeReached : RequestCodes.Statement .startTimeReached :=
  fun _ _ h => by cases h

theorem RequestCodes.permitRise : RequestCodes.Statement .permitRise := fun _ _ h => by cases h

theorem RequestCodes.frameTransmissionEnd (p : Port) : RequestCodes.Statement (.frameTransmissionEnd p) :=
  fun _ _ h => by cases h

theorem RequestCodes.waitIdleReturnToHunt (p : Port) : RequestCodes.Statement (.waitIdleReturnToHunt p) :=
  fun _ _ h => by cases h

end Sys2Proof.Laws
end

