-- ==== Sys2Proof/Tests/Slice0.lean ====
section
/-! SUPPORT. The model's own tests: the checks of WellFormed, single steps on small states, and, for each
statement that has hypotheses, states and operands that meet them at the bounds of their ranges. -/

namespace Sys2Proof.Tests

open Sys2Proof.Machine

-- One theorem at a time: kernel evaluations that wait for one another would each hold a thread.
set_option Elab.async false

/-! ## Small states -/

def axis : AxisRecord :=
  { node := 0x02, countsPerTurn := 129600000, zero := 0, negative := false
    countMin := -200000000, countMax := 200000000, rounding := .nearestEven, lead := 5000
    maxVelocity := 7200000, maxAcceleration := 3600000, settleTol := 1000, trackTol := 5000
    watch := 100000, offsetRate := 10000, parkAngle := 100000000, decimation := 2 }

def wide : AxisLimits :=
  { hardMin := -960000000, softMin := -940000000, softMax := 940000000, hardMax := 960000000 }

def limits : Lanes AxisLimits :=
  ⟨wide, { hardMin := -1, softMin := 0, softMax := 320000000, hardMax := 330000000 }, wide⟩

/-- IDLE with both tables loaded and valid mount time. -/
def idle : State := { State.reset with
  time.mount := 5000000, time.valid := true, planner.axes := some (.const axis)
  planner.limits := some limits, seq.motion := .idle, seq.hold := .const 25600000000 }

def record (id : Nat) : TargetRecord :=
  { targetId := id, cls := .opportunity, earliestStart := some 5000000, latestStart := none
    dwell := 2000, wrapPref := .auto, rotMode := .follow, guideMode := .required
    stats := .empty, captures := [], captureOverflow := false }

def chain (id : Nat) (x : Lane) (duration : Nat) : Chain :=
  { owner := id, lane := x, segments := [⟨4000000, duration, 100000000, 0, 0, 0⟩]
    ending := some ⟨4000000 + duration, 25600000000, 0⟩, closed := false, refillArmed := false }

def chains (id duration : Nat) : List Chain := [.az, .el, .rot].map (chain id · duration)

def running (id : Nat) : Running := ⟨record id, .fresh 2000 5000000 0⟩

/-- Target 5 in the slot, 6 on the shelf and 7 in the queue, in a motion state. -/
def busy (m : MotionState) : State := { idle with
  seq.motion := m, seq.active := some (running 5), seq.shelf := [running 6], seq.queue := [record 7]
  chains := chains 7 80000000 ++ chains 5 80000000 ++ chains 6 80000000 }

def tracking : State := busy .tracking

/-- The active target's context changed. -/
def withContext (f : Context → Context) : State := tracking.mapContext f

def guided (g : GuideState) : State :=
  { withContext (fun c => { c with guide := { c.guide with
      state := g, lastSeq := some 65535, watch := some ⟨2000000, 2000000⟩
      lost := some ⟨9, 9⟩ } }) with
    guide := some { guider := 0x41, azGain := 256, azClamp := 10, azLimit := 20, elGain := 256
                    elClamp := 10, elLimit := 20, qualityMin := 50, watch := 2, lostLimit := 1 } }

def request (code : Byte) (p : List Byte) : Request :=
  { src := 0x41, dest := 0x20, tag := 7, payload := code :: p }

/-- A state with one addressed request in its buffer. -/
def ask (s : State) (code : Byte) (p : List Byte) : State :=
  { s with site.requests := [request code p], site.responses := [] }

theorem test_ask_asks (s : State) (code : Byte) (p : List Byte) :
    (ask s code p).asks (request code p) [] code p :=
  ⟨rfl, rfl, by show (0x20 : Byte) ≠ 0xFF; decide, by show 0 < Config.responseSize; decide⟩

def broadcast (s : State) (payload : List Byte) : State :=
  { s with site.requests := [{ src := 0x41, dest := 0xFF, tag := 0, payload }] }

def frame (dest src kind : Byte) (payload : List Byte) : Frame :=
  { dest, src, kind, tag := 3, payload }

/-- Submit Target's parameters: presence byte, dwell, rot_mode with its angle, and after_id. -/
def submit (id presence dwell rot : Nat) (angle : Int) (after : Nat) : List Byte :=
  natBytes 2 id ++ natBytes 1 presence ++ natBytes 8 0 ++ natBytes 8 5000000 ++ natBytes 4 dwell ++
    natBytes 1 0 ++ natBytes 1 rot ++ intBytes 4 angle ++ natBytes 1 2 ++ natBytes 2 after

/-- The state after a command. -/
def after (c : Instr) (s : State) : State :=
  match exec c s with
  | .next t => t
  | .fault _ | .refused _ => s

/-- Whether a chain is found for Read Chain and its kin. -/
def named (s : State) (id : Nat) (x : Lane) : Bool :=
  match s.namedChain id x with
  | .ok _ => true
  | .error _ => false

/-! ## WellFormed -/

def longFrame (n : Nat) : Frame := frame 0x20 0x41 0x10 (List.replicate n 0)

theorem test_wellFormed_refuses_long_frames : ∀ c ∈
    [Instr.requestFrameReception (longFrame 241), .guideFrame (longFrame 241),
      .sample .az (longFrame 241), .proxyServiceFrame (longFrame 241),
      .serviceReply .rot (longFrame 241)], c.wellFormed = false := by decide +kernel

theorem test_wellFormed_accepts_full_frames : ∀ c ∈
    [Instr.requestFrameReception (longFrame 240), .guideFrame (longFrame 0),
      .sample .az (longFrame 240), .proxyServiceFrame (longFrame 240),
      .serviceReply .rot (longFrame 240)], c.wellFormed = true := by decide +kernel

theorem test_wellFormed_refuses_target_ids : ∀ n ∈ [0, 65536],
    (Instr.windowExpiry n).wellFormed = false := by decide

theorem test_wellFormed_accepts_target_ids : ∀ n ∈ [1, 65535],
    (Instr.windowExpiry n).wellFormed = true := by decide

/-- A character without its start bit is refused (R168). -/
theorem test_wellFormed_start_bit :
    (Instr.linkError .site [.quiet 2, .char (lineChar 0x00)]).wellFormed = true ∧
    (Instr.linkError (.axis .el) [.char (lineChar 0xFF), .char idleChar]).wellFormed = false := by
  decide

/-! ## The step, invariants and links -/

theorem test_step_front_witness :
    ({ State.reset with pending := [.stop] } : State).pending = .stop :: [] := by decide

theorem test_step_idle_witness : State.reset.pending = [] ∧ State.reset.nextDue = none ∧
    tracking.pending = [] ∧ tracking.seq.active = some (running 5) ∧
    tracking.time.mount < 2 ^ 64 - 1 ∧ (guided .locked).nextDue = some .guideWatchExpiry := by
  decide +kernel

theorem test_step_last_microsecond :
    ({ idle with time.mount := 2 ^ 64 - 1 } : State).tick.time.mount = 2 ^ 64 - 1 ∧
    ({ idle with time.mount := 2 ^ 64 - 2 } : State).tick.time.mount = 2 ^ 64 - 1 := by
  decide +kernel

/-- A head's event is handed over in the microsecond that crosses its start, and not in the one after
(R164). -/
theorem test_start_crossed : (after .stop { idle with
      pending := [], time.mount := 4999999, seq.queue := [record 7] }).tick.seq.startHanded = true ∧
    ({ idle with seq.queue := [record 7] } : State).tick.seq.startHanded = false := by
  decide +kernel

/-- The premises of the invariants hold of a busy state, and it steps. -/
theorem test_invariants_witness : tracking.slotMatches ∧ tracking.alarmMatches ∧
    tracking.planMatches ∧ tracking.quietAtRest ∧ tracking.idsUnique ∧ tracking.headersMatch ∧
    tracking.storeFits ∧ tracking.permitMatches ∧ tracking.measuresMatch ∧
    tracking.causesMatch ∧ tracking.idsValid ∧ tracking.chainsFit := by
  simp only [State.slotMatches, State.alarmMatches, State.planMatches, State.quietAtRest,
    State.idsUnique, State.headersMatch, State.storeFits, State.permitMatches,
    State.measuresMatch, State.causesMatch, State.idsValid, State.chainsFit, Lane.forall_iff]
  decide +kernel

theorem test_bounds_witness : tracking.bounded ∧ tracking.clockFits := by
  simp only [State.bounded, State.clockFits, alarmPair, Lane.forall_iff]
  and_intros <;> first
    | decide +kernel
    | exact RxState.bounded_hunt.1
    | exact RxState.bounded_hunt.2

theorem test_stacks_witness : tracking.stacksKept := by
  intro c hc
  have h : c = .fresh 2000 5000000 0 := by
    simpa [State.contexts, tracking, busy, running] using hc
  subst h
  refine ⟨by decide, by decide, fun top ht x => ?_⟩
  have : top = 0 := Nat.le_zero.1 ht
  subst this
  cases x <;> decide

theorem test_busy_state_steps : ∃ t, step tracking = .next t := ⟨_, rfl⟩

theorem test_wire_witness : (longFrame 240).wellFormed = true ∧
    frameOfWire (frameWire (frame 0x20 0x41 0x10 [])) = some (frame 0x20 0x41 0x10 []) := by
  decide +kernel

/-- A character written out bit by bit, the stop bit first and the start bit last, and the byte on a line in
each byte time (R168). -/
theorem test_line_characters : lineChar 0xA5 = 0b1101001010 ∧ lineChar 0x01 = 0b1000000010 ∧
    idleChar = 0b1111111111 ∧ charByte 0b0101001010 = 0xA5 ∧
    (startFrame (frame 0x20 0x41 0x10 [])).line = lineChar 0xA5 ∧
    ({ startFrame (frame 0x20 0x41 0x10 []) with inFlight := none } : Transmitter).line =
      0x3FF := by decide

/-! ## Requests in general -/

def stopEnding (ending : Nat) (park : Bool) : State := { idle with
  seq.motion := .stopping, seq.parkPending := park
  planner.current := .stop { idle.stopPlan idle.holdMotion with endTime := ending } }

theorem test_broadcast_witness :
    (∀ p ∈ ([[0x01], [0xEE], []] : List (List Byte)),
      requestOf p ∉ [Instr.stop, .park, .holdQueue, .setTimeAtPulse]) ∧
    (broadcast idle [0x19]).seq.motion = .idle ∧
    (after .stop (broadcast tracking [0x1A])).seq.motion = .stopping ∧
    (after .park (broadcast tracking [0x19])).seq.parkPending = true ∧
    (after .park (broadcast (stopEnding 5000001 false) [0x19])).seq.parkPending = true ∧
    (after .stop (broadcast { idle with seq.motion := .parking } [0x1A])).seq.motion = .stopping ∧
    (after .stop (broadcast State.reset [0x1A])).site.responses = [] ∧
    (0x49 :: natBytes 8 (2 ^ 64 - 1)).length = 9 ∧
    (∀ c ∈ [Instr.writeTerm, .deleteTerm, .commitTerms], ∃ b ∈ [0x20, 0x21, 0x22],
      requestOf [b] = c) := by decide +kernel

theorem test_waiting_witness :
    let full : State := { ask idle 0x1A [] with
      site.responses := List.replicate 4 { dest := 0, tag := 0, code := 0, reply := okReply [] } }
    4 ≤ full.site.responses.length ∧ full.site.requests.length = 1 ∧
      (requestCode .park).isSome = true ∧ Instr.park ≠ requestOf [0x1A] := by decide +kernel

theorem test_unknown_witness : requestCode .submitTarget = some 0x01 ∧
    requestCode .resetController = some 0x51 ∧ requestOf [0xEE] = .unknownRequest ∧
    requestOf [] = .unknownRequest := by decide +kernel

/-! ## Queue requests -/

/-- One request for each status of R10, in its order, with the bounds of the dwell. -/
theorem test_submitTarget_statuses :
    let answers := fun (s : State) p status =>
      (submitTargetBody p s).2.status = status
    answers tracking (submit 9 0 999 0 0 0) .badParam ∧
    answers tracking (submit 9 0 14400001 0 0 0) .badParam ∧
    answers tracking (submit 9 2 1000 0 0 0) .ok ∧
    answers tracking (submit 9 3 1000 0 0 0) .ok ∧
    answers { tracking with time.mount := 5000001 } (submit 9 2 1000 0 0 0) .badParam ∧
    answers { tracking with planner.limits := none } (submit 9 4 1000 1 0 0) .notReady ∧
    answers tracking (submit 9 4 1000 1 940000001 0) .outOfLimits ∧
    answers tracking (submit 9 4 1000 1 940000000 0) .ok ∧
    answers tracking (submit 6 0 1000 0 0 0) .duplicateId ∧
    answers tracking (submit 9 8 1000 0 0 6) .notFound ∧
    answers { tracking with seq.queue := List.replicate 64 (record 7) }
      (submit 9 8 14400000 0 0 7) .queueFull ∧
    answers { tracking with seq.queue := List.replicate 63 (record 7) }
      (submit 65535 8 14400000 0 0 7) .ok := by decide +kernel

/-- The premises of `SubmitTargetAdmitsRecord`, with and without after_id. -/
theorem test_submitTarget_admits_witness :
    (ask tracking 0x01 (submit 9 0 1000 0 0 0)).seq.queue ≠ [] ∧
    ((submitTargetBody (submit 9 8 1000 0 0 7) tracking).1.seq.queue.map (·.targetId)) = [7, 9] := by
  decide +kernel

/-- Submit Opportunity's parameters with no seed, and with one for AZ. -/
def opportunity (id : Nat) (seeds : List (List Byte)) : List Byte :=
  natBytes 2 id ++ natBytes 1 0 ++ natBytes 8 0 ++ natBytes 8 0 ++ natBytes 4 1000 ++ natBytes 1 0 ++
    natBytes 1 0 ++ intBytes 4 0 ++ natBytes 1 0 ++ natBytes 1 seeds.length ++ seeds.flatten

def seed (x : Lane) : List Byte :=
  natBytes 1 (laneCode x) ++ natBytes 8 4000000 ++ natBytes 4 600000000 ++ intBytes 4 100000000 ++
    intBytes 4 0 ++ intBytes 4 0 ++ intBytes 4 0

/-- The premises of `SubmitOpportunityQueuesOrPreempts`, with no seed and with three, outside the running
states and in one. -/
theorem test_submitOpportunity_witness :
    let p := opportunity 9 ([.az, .el, .rot].map seed)
    let r := submittedRecord p .opportunity
    let meets := fun (s : State) (p : List Byte) =>
      natAt p 30 1 ≤ 3 ∧ p.length = 31 + 29 * natAt p 30 1 ∧ natAt p 2 1 < 8 ∧
      recordOf p .opportunity s.time.valid s.time.mount = some (submittedRecord p .opportunity) ∧
      s.fixedRefusal (submittedRecord p .opportunity) = none ∧ s.present? 9 = false ∧
      (seedLanes (submittedRecord p .opportunity) (seedsOf p)).any (fun seeds =>
        (s.seedRefusal seeds).isNone) = true
    meets { busy .parked with seq.active := none } (opportunity 9 []) ∧ meets tracking p ∧
    tracking.seq.motion.running = true ∧ tracking.seq.shelf.length < 3 ∧
    tracking.time.valid = true ∧ startReached r tracking.time.mount = true ∧
    (seedLanes r (seedsOf p)).any (fun seeds =>
      (State.preemptPlan { tracking with chains := tracking.chains ++ tracking.seededChains r seeds }
        r).isSome) = true := by decide +kernel

/-- Withdraw Target and Adjust Dwell find 5 in the slot, 6 on the shelf, 7 in the queue and 8 nowhere;
the dwell values stand at the bounds of R63. -/
theorem test_places_witness :
    tracking.active? 5 = some (running 5) ∧ tracking.active? 6 = none ∧
    tracking.shelved? 6 = some (running 6) ∧ tracking.active? 7 = none ∧
    tracking.shelved? 7 = none ∧ tracking.queued? 7 = some (record 7) ∧
    tracking.present? 8 = false ∧ tracking.seq.motion ≠ .idle ∧
    (∀ v ∈ [0, 1, 999, 1000, 14400000], natAt (natBytes 2 5 ++ natBytes 4 v) 2 4 = v ∧
      v ≤ 14400000) ∧
    14400000 < natAt (natBytes 2 5 ++ natBytes 4 14400001) 2 4 := by decide +kernel

/-- The choices of `State.ended` (R64): the top of the shelf restored, or abandoned for want of a trajectory
and then the stop profile; with an empty shelf the head activated, or the stop profile; and the park
slew. -/
theorem test_ended_witness :
    let past := fun s : State => (s.endActive .completed .none).seq
    let alone : State := { tracking with seq.shelf := [] }
    let uncovered : State := { tracking with chains := chains 5 80000000 ++ chains 6 500000 }
    (past tracking).active.map (·.record.targetId) = some 6 ∧ (past tracking).motion = .slewing ∧
    (past uncovered).motion = .stopping ∧ (past uncovered).outcomes.length = 2 ∧
    (past alone).motion = .stopping ∧
    (past { alone with seq.mode := .run }).active.map (·.record.targetId) = some 7 ∧
    (past { tracking with seq.parkPending := true }).motion = .parking ∧
    (past { tracking with seq.parkPending := true }).outcomes.length = 2 := by decide +kernel

theorem test_adjustDwell_refuses :
    (∀ v ∈ [0, 999], (adjustDwellBody (natBytes 2 7 ++ natBytes 4 v) tracking).2.status = .badParam) ∧
    (adjustDwellBody (natBytes 2 7 ++ natBytes 4 1000) tracking).2.status = .ok ∧
    (adjustDwellBody (natBytes 2 5 ++ natBytes 4 14400001) tracking).2.status = .badParam := by
  decide +kernel

theorem test_queueMode_witness : idle.seq.queue = [] ∧ idle.seq.mode = .hold ∧
    tracking.seq.motion ≠ .idle ∧ State.reset.time.valid = false := by decide +kernel

/-- The reading requests find what they read. -/
theorem test_reading_witness :
    let left : State := { tracking with seq.outcomes :=
      [{ record := record 8, verdict := .completed, reason := .none, axis := none, time := 0
         place := .active }] }
    (left.outcome? 8).isSome ∧ left.present? 8 = false ∧ named tracking 5 .rot = true ∧
    named tracking 7 .az = true ∧ laneOf (natAt (natBytes 2 5 ++ [2, 127]) 2 1) = some .rot ∧
    natAt (natBytes 2 5 ++ [2, 127]) 3 1 = 127 ∧ natAt (natBytes 2 5 ++ [1]) 2 1 = 1 := by
  decide +kernel

/-! ## Chain requests -/

/-- Append Segments' parameters: one segment at AZ's chain end. -/
def append (id : Nat) : List Byte :=
  natBytes 2 id ++ [0, 1] ++ natBytes 8 84000000 ++ natBytes 4 600000000 ++
    intBytes 4 100000000 ++ intBytes 4 0 ++ intBytes 4 0 ++ intBytes 4 0

theorem test_append_witness :
    let p := append 5
    laneOf (natAt p 2 1) = some .az ∧ p.length = 4 + 28 * natAt p 3 1 ∧ natAt p 3 1 = 1 ∧
    natAt p 0 2 = 5 ∧ named tracking 5 .az = true ∧ (appendedSegments p).length = 1 ∧
    1 ≤ freeSlots tracking.chains ∧
    checkSegments tracking.planner.limits tracking.planner.axes .az
      (chain 5 .az 80000000).ending 1 (appendedSegments p) = none ∧
    headId tracking.seq.queue ≠ 5 := by decide +kernel

theorem test_chain_witness :
    let fresh : State := { tracking with chains := tracking.chains.map (fun c =>
      { c with segments := [], ending := none }) }
    named fresh 5 .az = true ∧ named tracking 5 .az = true ∧ named tracking 7 .el = true ∧
    (∃ g ∈ (chain 7 .el 80000000).segments, g.start = 4000000) ∧
    tracking.active? 7 = none ∧ tracking.active? 5 ≠ none ∧
    (let later : Segment := ⟨6000000, 1000000, 0, 0, 0, 0⟩
     tracking.time.mount + 1000000 ≤ later.start) := by decide +kernel

/-! ## Motion requests -/

def sampled (now : Nat) (seen : Bool) : LatestSample :=
  { arrival := now, sampleTime := now, counts := 10000000, fault := false, limitSwitch := false
    braked := true, measured := some 100000000, commanded := none, error := none
    holdMark := false, seenSinceAlarm := seen }

/-- PARKED with samples at the age that the watch allows. -/
def parked : State := { idle with
  seq.motion := .parked, servo.latest := .const (some (sampled 4900000 false)) }

def alarmed : State := { idle with
  seq.motion := .alarm, servo.latest := .const (some (sampled 4900000 true))
  cond.first := some { kind := .driveFault, axis := some .az, time := 0 }
  cond.causeSet := [(.driveFault, some .az)] }

theorem test_unpark_witness :
    parked.planner.axes ≠ none ∧ parked.planner.limits ≠ none ∧ parked.time.valid = true ∧
    (∀ x ∈ allLanes, (parked.servo.latest.get x).any (fun l => decide (l.arrival ≤ 5000000) &&
      decide (parked.time.mount - l.arrival = (parked.axis x).watch)) = true) ∧
    (unparkBody [] parked).1.seq.motion = .idle ∧
    (unparkBody [] { parked with time.mount := 5000001 }).1.seq.motion = .parked := by
  decide +kernel

/-- ALARM with AZ's latest sample changed. -/
def alarmedWith (f : LatestSample → LatestSample) : State :=
  { alarmed with servo.latest.az := some (f (sampled 4900000 true)) }

theorem test_clearAlarm_witness :
    alarmed.permit = true ∧ (∀ x ∈ allLanes,
      (limits.get x).hardMin ≤ 100000000 ∧ 100000000 ≤ (limits.get x).hardMax) ∧
    (clearAlarmBody [] alarmed).1.seq.motion = .idle ∧
    (∀ c ∈ [({ alarmed with permit := false }, [1]),
        ({ alarmed with planner.axes := none }, [2]),
        ({ alarmed with planner.limits := none }, [3]),
        ({ alarmed with servo.latest.rot := none }, [4, 2]),
        (alarmedWith (fun l => { l with seenSinceAlarm := false, fault := true }), [4, 0]),
        (alarmedWith (fun l => { l with fault := true, limitSwitch := true }), [5, 0]),
        (alarmedWith (fun l => { l with limitSwitch := true, measured := some 960000001 }), [6, 0]),
        (alarmedWith (fun l => { l with measured := some 960000001 }), [7, 0])],
      (clearAlarmBody [] c.1).2 = { status := .notReady, result := c.2 }) ∧
    (clearAlarmBody [] (alarmedWith (fun l => { l with measured := some 960000000 }))).2.status =
      .ok := by decide +kernel

/-- Every motion state that `StopAndParkByState` names. -/
theorem test_stop_park_witness :
    tracking.seq.active = some (running 5) ∧ tracking.seq.motion.running = true ∧
    (∀ m ∈ [MotionState.idle, .stopping, .parking, .parked, .alarm],
      ({ idle with seq.motion := m } : State).seq.motion = m) ∧
    (stopBody [] tracking).1.seq.motion = .stopping ∧
    (stopBody [] tracking).1.seq.outcomes.map (fun e => (e.record.targetId, e.verdict)) =
      [(5, .withdrawn), (6, .abandoned)] ∧
    (parkBody [] idle).1.seq.motion = .parking := by decide +kernel

/-! ## Corrections -/

theorem test_term_witness :
    let p := [0x07, 8, 2] ++ intBytes 4 3600000
    let q := [0x09, 0, 0] ++ intBytes 4 (-3600000)
    let t : Term := { kind := 7, n := 8, phase := 2, c := 1 }
    let full : State := { tracking with corr.staged := List.replicate 24 t }
    (writeTermBody p idle).2.status = .ok ∧ (writeTermBody q full).2.status = .tableFull ∧
    (writeTermBody p full).2.status = .duplicateTerm ∧
    (writeTermBody ([0x0A, 0, 0] ++ intBytes 4 0) idle).2.status = .badParam ∧
    (writeTermBody ([0x00, 0, 0] ++ intBytes 4 3600001) idle).2.status = .badParam ∧
    (deleteTermBody [7, 8, 2] full).2.status = .ok ∧
    (deleteTermBody [7, 8, 1] full).2.status = .notFound ∧
    (deleteTermBody [7, 9, 1] full).2.status = .badParam ∧
    idle.seq.motion ∉ [.settling, .tracking, .degraded] ∧
    full.seq.motion ∈ [.settling, .tracking, .degraded] := by decide +kernel

/-- The active target's stack with some entries VALID, each of 500,000 mas on AZ. -/
def stacked (top : Nat) : State := withContext (fun c => { c with
  stack := { entries := List.replicate 8 ⟨500000, 0, 0⟩, top } })

def offset (lanes : Byte) (az : Int) : List Byte := lanes :: (intBytes 4 az ++ natBytes 8 0)

/-- The bounds of Push and Replace Top Offset: the last free entry, and an effective offset at 3,600,000
mas and one beyond. -/
theorem test_offset_witness :
    ((stacked 7).seq.active.map (·.ctx.stack.entries.length)) = some 8 ∧
    (offset 1 100000).length = 13 ∧ natAt (offset 7 0) 0 1 = 7 ∧
    (pushOffsetBody (offset 1 100000) (stacked 7)).2.status = .ok ∧
    (pushOffsetBody (offset 1 100001) (stacked 7)).2.status = .offsetRange ∧
    (pushOffsetBody (offset 1 0) (stacked 8)).2.status = .stackFault ∧
    (popOffsetBody [] (stacked 1)).2.status = .ok ∧
    (popOffsetBody [] (stacked 0)).2.status = .stackFault ∧
    (replaceTopOffsetBody (offset 7 600000) (stacked 7)).2.status = .ok ∧
    (replaceTopOffsetBody (offset 7 600001) (stacked 7)).2.status = .offsetRange ∧
    (replaceTopOffsetBody (offset 7 0) (stacked 0)).2.status = .stackFault ∧
    (List.replicate 8 (⟨500000, 0, 0⟩ : Lanes Int)) =
      List.replicate 6 ⟨500000, 0, 0⟩ ++ ⟨500000, 0, 0⟩ :: [⟨500000, 0, 0⟩] ∧
    (∀ c ∈ [Instr.pushOffset, .popOffset, .replaceTopOffset, .clearOffsets, .readOffsets],
      (requestCode c).isSome = true) ∧ idle.seq.active = none := by decide +kernel

theorem test_stackFault_masks : (stacked 8).cond.mask.getLsbD 5 = true ∧
    ({ stacked 8 with cond.mask := 0 } : State).cond.mask.getLsbD 5 = false := by decide +kernel

/-! ## Guiding -/

def configuration : List Byte :=
  [0x41] ++ natBytes 2 256 ++ natBytes 4 1000 ++ natBytes 4 1000 ++ natBytes 2 256 ++
    natBytes 4 1000 ++ natBytes 4 1000 ++ [50, 2] ++ natBytes 2 1

theorem test_guideRequests_witness :
    (guideConfigOf configuration idle.site.address).isSome = true ∧
    (guided .off).guide.isSome = true ∧ (guided .off).seq.motion ≠ .slewing ∧
    (startGuidingBody [] (guided .off)).2.status = .ok ∧
    (stopGuidingBody [1] (guided .locked)).2.status = .ok ∧
    (stopGuidingBody [2] (guided .locked)).2.status = .badParam := by decide +kernel

/-- A GUIDE frame for target 5, whose sequence follows 65535, with an AZ correction and a quality. -/
def guide (az : Int) (quality : Byte) : Frame :=
  frame 0x20 0x41 0x18 (natBytes 2 5 ++ natBytes 2 0 ++ intBytes 4 az ++ intBytes 4 0 ++ [quality])

/-- Poor and good frames, and steps at the clamp and beyond it. -/
theorem test_guideFrame_witness :
    let v := fun az q => guideOf (guide az q).payload
    (v 10 50).isSome = true ∧ (v 10 50).any (fun f => decide (f.targetId = 5)) = true ∧
    newerSequence (some 65535) 0 = true ∧
    stepRejected 0 (256 * 10) 10 20 = false ∧ stepRejected 0 (256 * 11) 10 20 = true ∧
    stepRejected (256 * 11) (256 * 10) 10 20 = true ∧
    (v 10 49).any (fun f => decide (f.quality < 50)) = true ∧
    (guided .locked).cond.mask.getLsbD 4 = true ∧
    ((guided .acquiring).takeGuide 0x41 (guide 10 50).payload).seq.active.map
      (·.ctx.guide.state) = some .locked ∧
    ((guided .locked).takeGuide 0x41 (guide 11 50).payload).seq.active.map
      (fun a => (a.ctx.guide.accAz, a.ctx.flags)) = some (2560, 0x10) := by decide +kernel

/-- With the mask bit clear a rejected frame ends the target, and leaves its accumulator (R137, R148). -/
theorem test_guideFrame_unmasked :
    let s : State := { guided .locked with cond.mask := 0x6F }
    s.cond.mask.getLsbD 4 = false ∧ s.site.rx = .hunt ∧
    (after (.guideFrame (guide 11 50)) s).seq.outcomes.map (fun e => (e.record.targetId, e.reason)) =
      [(5, .condition .guideReject)] ∧
    (after (.guideFrame (guide 11 50)) s).rep.queue.length = 4 := by decide +kernel

theorem test_guideFrame_unfit :
    (guide 10 50).payload.length = 13 ∧ (guide 10 50).kind = 0x18 ∧
    (guided .off).site.rx = .hunt ∧ tracking.guide = none ∧ idle.seq.active = none ∧
    (0 + 65536 - 0) % 65536 = 0 ∧ 32768 ≤ (32768 + 65536 - 0) % 65536 := by decide +kernel

theorem test_guideTimers_witness :
    (guided .locked).guideWatchDue = true ∧ (guided .acquiring).guideWatchDue = true ∧
    (guided .lost).guideLostDue = true ∧
    (withContext (fun c => { c with guide := { c.guide with
      state := .locked, watch := some ⟨1999999, 2000000⟩ } })).guideWatchDue = false := by
  decide +kernel

/-! ## Conditions, setup and time -/

theorem test_masks_witness : (0x7F : Byte).getLsbD 7 = false ∧ (0x00 : Byte).getLsbD 7 = false ∧
    (setMasksBody [0x80] idle).2.status = .badParam ∧
    (clearConditionsBody [0x20] tracking).2.status = .ok ∧
    (clearConditionsBody [0x20] idle).2.status = .noTarget := by decide +kernel

/-- One axis's 51 bytes of Load Axes. -/
def axisBytes : List Byte :=
  [2] ++ natBytes 4 129600000 ++ intBytes 4 0 ++ [0] ++ intBytes 4 (-200000000) ++
    intBytes 4 200000000 ++ [0] ++ natBytes 2 5000 ++ natBytes 4 7200000 ++ natBytes 4 3600000 ++
    natBytes 4 1000 ++ natBytes 4 5000 ++ natBytes 4 100000 ++ natBytes 4 10000 ++
    intBytes 4 100000000 ++ natBytes 2 2

def axesBytes : List Byte :=
  axisBytes ++ axisBytes ++ axisBytes ++ natBytes 2 100 ++ natBytes 2 100 ++ natBytes 2 5 ++
    natBytes 2 10

def fourBytes (l : AxisLimits) : List Byte :=
  ([l.hardMin, l.softMin, l.softMax, l.hardMax].map (intBytes 4)).flatten

def limitsBytes : List Byte := fourBytes wide ++ fourBytes limits.el ++ fourBytes wide

theorem test_loads_witness :
    axesBytes.length = 161 ∧ (axisTableOf axesBytes).isSome = true ∧ limitsBytes.length = 48 ∧
    (∀ x ∈ allLanes, limits.get x =
      { hardMin := intAt limitsBytes (16 * laneCode x) 4
        softMin := intAt limitsBytes (16 * laneCode x + 4) 4
        softMax := intAt limitsBytes (16 * laneCode x + 8) 4
        hardMax := intAt limitsBytes (16 * laneCode x + 12) 4 }) ∧
    (loadAxesBody axesBytes idle).2.status = .ok ∧
    (loadLimitsBody limitsBytes idle).2.status = .ok ∧
    (loadLimitsBody limitsBytes tracking).2.status = .wrongState ∧
    tracking.planner.limitsLocked = false := by decide +kernel

theorem test_lock_witness : State.reset.planner.limits = none ∧ idle.planner.limits ≠ none ∧
    (lockLimitsBody [0] idle).2.status = .badParam ∧
    (loadLimitsBody limitsBytes { idle with planner.limitsLocked := true }).2.status = .locked := by
  decide +kernel

theorem test_destination_witness : (∀ b ∈ ([0x20, 0x30, 0x31, 0x32] : List Byte),
      (setReportDestinationBody [b] idle).2.status = .badParam) ∧
    (∀ b ∈ ([0x2F, 0x33, 0xFF, 0x00] : List Byte),
      (setReportDestinationBody [b] idle).2.status = .ok) ∧
    ({ idle with site.tx.gap := 0 } : State).site.tx.free = true := by decide +kernel

theorem test_forwarding_witness :
    (forwardingOf [0, 0, 1, 0x30, 0x28, 0x2F, 0]).isSome = true ∧
    (loadForwardingBody [0, 0, 0] idle).2.status = .ok ∧
    (loadForwardingBody [1, 0x41, 1, 0x32, 0x28, 0x2F, 2] idle).2.status = .ok ∧
    (loadForwardingBody [1, 0x20, 0] idle).2.status = .badParam ∧
    (∀ p ∈ [natBytes 2 1 ++ natBytes 2 0, natBytes 2 600 ++ natBytes 2 3600],
      (enableSupervisionBody p idle).2.status = .ok) ∧
    (∀ p ∈ [natBytes 2 0 ++ natBytes 2 0, natBytes 2 601 ++ natBytes 2 0,
      natBytes 2 1 ++ natBytes 2 3601], (enableSupervisionBody p idle).2.status = .badParam ∧
        (enableSupervisionBody p { idle with seq.sup.locked := true }).2.status = .locked) := by
  decide +kernel

/-- A step of 2,000 microseconds is taken in TRACKING and one more is refused, both ways. -/
theorem test_setTime_witness :
    (∀ v ∈ [4998000, 5002000], (setTimeBody (natBytes 8 v) tracking).1.time.mount = v) ∧
    (∀ v ∈ [4997999, 5002001], (setTimeBody (natBytes 8 v) tracking).2.status = .timeStep) ∧
    (setTimeBody (natBytes 8 (2 ^ 64 - 1)) idle).1.time.mount = 2 ^ 64 - 1 ∧
    (setTimeBody (natBytes 8 0) idle).1.time.mount = 0 ∧
    (∀ q ∈ tracking.seq.queue, q.latestStart = none) := by decide +kernel

/-- A forward step hands over a start that it crosses and leaves the dwell of a target that is not LOCKED,
a backward one restarts the supervision interval, and a record whose window either leaves behind expires (R61, R159, R164, R166). -/
theorem test_setTime_moves :
    let s : State := { tracking with
      time.mount := 4999000, seq.sup.timer := some 1
      seq.queue := [{ record 7 with latestStart := some 4999999 }, record 8] }
    let fore := (setTimeBody (natBytes 8 5000000) s).1
    let back := (setTimeBody (natBytes 8 4998000) s).1
    (∀ r ∈ s.standing, 1 ≤ r.targetId ∧ r.targetId ≤ 65535) ∧
    (s.standing.map (·.targetId)).Nodup ∧ s.passedBy 5000000 ≠ [] ∧ s.passedBy 4998000 = [] ∧
    fore.seq.active.map (·.record.stats.dwellCounted) = some 0 ∧
    fore.seq.queue.map (·.targetId) = [8] ∧ fore.seq.sup.timer = some 1 ∧
    back.seq.queue.length = 2 ∧ back.seq.sup.timer = some 4998000 ∧
    (setTimeBody (natBytes 8 5000000)
      { s with seq.queue := [record 7] }).1.seq.startHanded = true := by decide +kernel

/-- A forward step of 1,000 microseconds counts on the dwell of a LOCKED target, and takes what is left
of a shorter one (R61, log 17). -/
theorem test_setTime_dwell :
    let stepped := fun remaining : Nat => (setTimeBody (natBytes 8 5001000) (withContext (fun c =>
      { c with dwellRemaining := remaining, guide.state := .locked }))).1.seq.active.map
        (fun a => (a.ctx.dwellRemaining, a.record.stats.dwellCounted))
    stepped 2000 = some (1000, 1000) ∧ stepped 1000 = some (0, 1000) ∧
    stepped 999 = some (0, 999) := by decide +kernel

theorem test_pulse_witness :
    let armed : State := { tracking with time.load := some 5002000 }
    let far : State := { tracking with time.load := some 5002001 }
    let back : State := { armed with time.load := some 4998000, seq.sup.timer := some 1 }
    (armed.capturePulse.pulseLoad 5002000).time.mount = 5002000 ∧
    (armed.standing.map (·.targetId)).Nodup ∧
    (armed.passedBy 5002000 = [] ∧ ({ armed with seq.queue := [{ record 7 with
      latestStart := some 5001999 }] } : State).passedBy 5002000 ≠ []) ∧
    (back.capturePulse.pulseLoad 4998000).seq.sup.timer = some 4998000 ∧
    (far.capturePulse.pulseLoad 5002001).time.mount = 5000000 ∧
    tracking.time.load = none ∧ tracking.seq.motion ∉ [.parked, .idle, .alarm] := by decide +kernel

theorem test_resetController_witness : (resetControllerBody [] idle).2.status = .ok ∧
    (resetControllerBody [] tracking).2.status = .wrongState := by decide +kernel

/-! ## Frames in and out -/

theorem test_reception_witness :
    let full : State := { idle with site.requests := List.replicate 4 (request 0x1A []) }
    let last : State := { idle with site.requests := List.replicate 3 (request 0x1A []) }
    idle.site.rx = .hunt ∧ (longFrame 240).payload.length = 240 ∧
    (full.bufferRequest (longFrame 1)).site.requestDropped = true ∧
    (last.bufferRequest (longFrame 1)).site.requests.length = 4 ∧
    (∀ b ∈ ([0x2F, 0x33, 0x21] : List Byte), b ≠ idle.site.address ∧ b ≠ 0xFF ∧ b ≠ 0x30 ∧
      b ≠ 0x31 ∧ b ≠ 0x32) := by decide +kernel

def entry (action : ForwardAction) : ForwardEntry :=
  { proxy := .el, low := 0x28, high := 0x2F, action }

/-- Kinds at the bounds of the cases of R177, and each case of a matched entry. -/
theorem test_proxy_witness :
    proxyOf .el = 0x31 ∧ proxyOf .el ≠ idle.site.address ∧
    idle.forwardMatch .el 0x28 = none ∧
    ({ idle with site.forwarding := [entry .drop] } : State).forwardMatch .el 0x2F =
      some (entry .drop) ∧
    ({ idle with site.forwarding := [entry .drop] } : State).forwardMatch .az 0x28 = none ∧
    ((({ idle with site.forwarding := [entry .forwardQuiet] } : State).proxyFrame .el
      (frame 0x31 0x41 0x28 [])).ports.el.service.length = 1) ∧
    ((({ tracking with site.forwarding := [entry .forwardQuiet] } : State).proxyFrame .el
      (frame 0x31 0x41 0x28 [])).ports.el.service.length = 0) ∧
    (∀ k ∈ ([0x1F, 0x30] : List Byte), ((idle.proxyFrame .el (frame 0x31 0x41 k [])) = idle)) ∧
    (∀ k ∈ ([0x20, 0x27] : List Byte),
      ((idle.proxyFrame .el (frame 0x31 0x41 k [])).rep.queue.length = 1)) := by decide +kernel

theorem test_reply_witness :
    let f := frame 0x01 0x02 0x2F []
    let asked : State := { idle with ports.az := { idle.ports.az with requester := some 0x41 } }
    f.src = (idle.axis .az).node ∧ (idle.ports.az).requester = none ∧
    (asked.replyFrame .az f).site.returns.length = 1 ∧
    ((asked.replyFrame .az f).replyFrame .az f).rep.queue.length = 1 := by decide +kernel

theorem test_linkErrors_witness :
    let waiting : State := { idle with
      site.rx := .waitIdle 0, ports.rot := { idle.ports.rot with rx := .waitIdle 1 } }
    waiting.receiver .site = .waitIdle 0 ∧ waiting.receiver (.axis .rot) = .waitIdle 1 ∧
    240 < (longFrame 241).payload.length ∧ raiseCount 65534 = 65535 ∧
    raiseCount 65535 = 65535 := by decide +kernel

/-- Every case of a receiver (R169): the start byte, a header in collection, a length field of 240 and of
241, a frame whose CRC matches and one whose does not, and idle time that comes to 1 and to 2 byte times. -/
theorem test_receiver_cases :
    let bytes := (frameWire (frame 0x20 0x41 0x10 [7])).drop 1
    let next := fun r b => rxNext r (.char (lineChar b))
    next .hunt 0xA5 = (.frame [] 0, none) ∧ next .hunt 0xA4 = (.hunt, none) ∧
    next (.frame [1, 2, 3, 4] 1) 0 = (.frame [1, 2, 3, 4, 0] 0, none) ∧
    next (.frame [1, 2, 3, 4, 0] 0) 240 = (.frame [1, 2, 3, 4, 0, 240] 0, none) ∧
    next (.frame [1, 2, 3, 4, 0] 0) 241 = (.waitIdle 0, some (.discarded .oversize)) ∧
    next (.frame (bytes.take 8) 0) (bytes.getD 8 0) =
      (.hunt, some (.received (frame 0x20 0x41 0x10 [7]))) ∧
    next (.frame (bytes.take 8) 0) (~~~(bytes.getD 8 0)) = (.hunt, some (.discarded .crc)) ∧
    rxNext (.frame [1] 0) (.quiet 1) = (.frame [1] 1, none) ∧
    rxRun (.frame [1] 0) [.quiet 1, .quiet 1] = (.hunt, [.discarded .truncation]) ∧
    rxRun (.frame [1] 0) [.quiet 1, .char (lineChar 2), .quiet 1] = (.frame [1, 2] 1, []) ∧
    rxRun (.waitIdle 0) [.quiet 1] = (.waitIdle 1, []) ∧
    rxNext (.waitIdle 1) (.quiet 1) = (.hunt, none) ∧
    next (.waitIdle 1) 0xA5 = (.waitIdle 0, none) := by decide +kernel

/-- Two byte times of the part's own clock truncate a frame in reception, which is counted, and end
WAIT_IDLE (R169). -/
theorem test_idle_line_ticks :
    let s : State := { idle with site.rx := .frame [1] 0, ports.az.rx := .waitIdle 0 }
    s.tick.site.rx = .frame [1] 1 ∧ s.tick.ports.az.rx = .waitIdle 1 ∧
    s.tick.tick.site.rx = .hunt ∧ s.tick.tick.site.linkErrors = 1 ∧
    s.tick.tick.ports.az.rx = .hunt ∧ s.tick.tick.ports.az.linkErrors = 0 := by decide +kernel

/-- Lines that are free with each kind of source in front, and lines that are not. -/
theorem test_arbiters_witness :
    let f := frame 0x02 0x01 0x28 []
    let line : Transmitter := { inFlight := none, gap := 0 }
    let port : AxisPort := { AxisPort.reset with tx := line, setpoint := some f, service := [f] }
    port.tx.free = true ∧ port.control.isSome = true ∧ port.start.control = none ∧
    (port.start.tx.inFlight.map (·.frame)) = port.control ∧
    ({ port with control := none } : AxisPort).start.setpoint = none ∧
    ({ port with control := none, setpoint := none } : AxisPort).start.service = [] ∧
    AxisPort.reset.tx.free = false ∧ port.start.tx.free = false := by decide +kernel

theorem test_siteArbiter_witness :
    let report : Report := { detail := .phaseChange .idle .slewing, time := 0, targetId := 5
                             precededByLoss := false }
    let one : State := { ask idle 0x1A [] with
      site.tx.gap := 0, rep.queue := [report]
      site.responses := [{ dest := 0x41, tag := 0, code := 0x1A, reply := okReply [] }]
      site.returns := [{ axis := .az, frame := frame 0x41 0x30 0x28 [] }] }
    one.startSite.site.responses = [] ∧ one.startSite.rep.queue = [report] ∧
    ({ one with site.responses := [] } : State).startSite.rep.queue = [] ∧
    ({ one with site.responses := [], rep.queue := [] } : State).startSite.site.returns = [] := by
  decide +kernel

/-! ## Samples -/

/-- A SAMPLE of 100,000,000 mas, aged 7 microseconds. -/
def sample (flags : Byte) : Frame :=
  frame 0x01 0x02 0x21 (intBytes 4 10000000 ++ natBytes 2 7 ++ [flags])

/-- STOPPING and PARKING under plans that end 1 s ahead. -/
def moving : List State := [
  { idle with
    seq.motion := .stopping
    planner.current := .stop { idle.stopPlan idle.holdMotion with endTime := 6000000 } },
  { idle with
    seq.motion := .parking, planner.current := .park (idle.parkPlan idle.holdMotion) }]

theorem test_heard_witness : ∀ s ∈ [idle, parked, alarmed, tracking, busy .slewing] ++ moving,
    ∃ v, s.heard .az (sample 0) v :=
  fun s hs => ⟨⟨10000000, 7, false, false, false⟩, by
    revert s; unfold State.heard; decide +kernel⟩

/-- A hold position in the count range, and one outside it, which gets the HOLD marker (R121). -/
theorem test_sampleAtRest_witness :
    let sent := fun s : State =>
      ((after (.sample .az (sample 0)) s).ports.az.setpoint.map (·.payload.getLast?))
    let narrow : State := { idle with planner.axes := some (.const { axis with countMax := 9999999 }) }
    sent idle = some (some 0) ∧ sent narrow = some (some 1) ∧ sent parked = none ∧
    sent alarmed = none ∧ (∀ s ∈ moving, sent s = some (some 0)) := by decide +kernel

/-- The premises of `SampleInTrackingCommandsComposition`. -/
theorem test_sampleInTracking_witness :
    let now := tracking.time.mount + (tracking.axis .az).lead
    let lanes := mapChain tracking.chains 5 .az (fun c => c.retire now)
    let ctx := (running 5).ctx.advance .az (tracking.axis .az).offsetRate tracking.time.mount
    let pos := (skyMotion lanes (record 5) .az now).pos + wrapPart .az ctx.wrapK +
      pointingPart tracking.corr.active lanes (record 5) .az now + ctx.applied.get .az +
      guidePart ctx.guide .az
    tracking.servo.causes = .empty ∧ pendingFault (running 5).ctx.flags tracking.cond.mask = none ∧
    findChain tracking.chains 5 .az = some (chain 5 .az 80000000) ∧
    (((chain 5 .az 80000000).retire now).valueAt now).isSome = true ∧
    256 * (tracking.limit .az).softMin ≤ pos ∧ pos ≤ 256 * (tracking.limit .az).softMax ∧
    (tracking.axis .az).countMin ≤ countOf (tracking.axis .az) pos ∧
    countOf (tracking.axis .az) pos ≤ (tracking.axis .az).countMax ∧
    tracking.guarded .az pos = false := by decide +kernel

/-- The plan's value in SLEWING is in the limits, and a FIXED ROT has no chain. -/
theorem test_sampleElsewhere_witness :
    let slewing : State := { busy .slewing with
      planner.current := .slew { idle.parkPlan idle.holdMotion with arrival := 6000000 } }
    let fixed : State := tracking.mapActive (fun a => { a with record.rotMode := .fixed 100000000 })
    let t := tracking.time.mount + 5000
    slewing.guarded .az (slewing.planValue .az t).pos = false ∧
    (axis.countMin ≤ countOf axis (slewing.planValue .az t).pos ∧
      countOf axis (slewing.planValue .az t).pos ≤ axis.countMax) ∧
    fixed.seq.active.any (fun a => decide (a.record.rotMode = .fixed 100000000)) = true ∧
    (∀ m ∈ [MotionState.settling, .degraded], (busy m).seq.motion.composing = true) := by
  decide +kernel

/-- The drive's FAULT flag raises DRIVE_FAULT, and LIMIT_SWITCH raises HARD_LIMIT (R118). -/
theorem test_drive_flags :
    let first := fun flags => (after (.sample .az (sample flags)) tracking).cond.first
    first 1 = some { kind := .driveFault, axis := some .az, time := 5000000 } ∧
    first 2 = some { kind := .hardLimit, axis := some .az, time := 5000000 } ∧
    (after (.sample .az (sample 3)) tracking).cond.causeSet =
      [(.driveFault, some .az), (.hardLimit, some .az)] ∧
    (after (.sample .az (sample 1)) alarmed).cond = alarmed.cond := by decide +kernel

/-- TRACKING with a SETPOINT in flight at one of its bytes. -/
def inFlight (pos : Nat) : State :=
  let f := setpointFrame 0x02 9 ⟨1, 0, false⟩
  { tracking with ports.az.tx :=
      { inFlight := some { frame := f, wire := frameWire f, pos, cut := false }, gap := 0 } }

/-- The cut-off while the last covered byte, the first and the last CRC byte are on the line (R131). -/
theorem test_cut_witness :
    let wire := frameWire (setpointFrame 0x02 9 ⟨1, 0, false⟩)
    let cut := fun pos => ((inFlight pos).raised .permitLost none).ports.az.tx.inFlight.map
      (fun i => (i.wire.length, i.cut, decide (i.wire = wire)))
    wire.length = 18 ∧ cut 5 = some (8, true, false) ∧ cut 15 = some (18, true, false) ∧
    cut 16 = some (18, true, false) ∧ cut 17 = some (18, true, true) := by decide +kernel

/-! ## The steps of a sample -/

/-- UNDERRUN at the evaluation time, masked and unmasked, a refill due and not due, and the hold cleared
(R41, R43, R148). -/
theorem test_lane_witness :
    let gone : State := { tracking with
      chains := chains 5 80000000 |>.map (fun c => { c with
        segments := [], ending := some ⟨4000000, 25600000000, 0⟩, refillArmed := true }) }
    let bare : State := { gone with cond.mask := 0 }
    let p := fun s : State => s.evaluateLane .az 5005000
    (findChain gone.chains 5 .az).isSome = true ∧
    (gone.evaluateLane .az 5005000).1.rep.queue.length ≤ 4 ∧
    ({ gone with cond.mask := 0x7F } : State).cond.mask.getLsbD 0 = true ∧
    (p { gone with cond.mask := 0x7F }).1.seq.motion = .degraded ∧
    (p { gone with cond.mask := 0x7F }).1.chains.map (·.refillArmed) = [false, true, true] ∧
    (p bare).2 = true ∧ (p tracking).2 = false ∧
    (tracking.refillTest 5 .az) = tracking := by decide +kernel

/-- A moving AZ chain that ends 2,000 microseconds ahead, or is longer by an appended segment. -/
def ending (longer : Bool) (c : Causes) : State :=
  let first : Segment := ⟨4000000, 1002000, 100000000, 1000000, 0, 0⟩
  let next : Segment := ⟨5002000, 60000000, 101002000, 1000000, 0, 0⟩
  { tracking with
    cond.mask := 0x7F, servo.causes := c
    chains := [{ owner := 5, lane := .az, closed := false, refillArmed := false
                 segments := if longer then [first, next] else [first]
                 ending := some (if longer then ⟨65002000, 256 * 161002000, 256000000⟩
                   else ⟨5002000, 256 * 101002000, 256000000⟩) }, chain 5 .el 80000000] }

/-- A masked underrun found at an evaluation time past the end holds the present motion at end_position
with velocity 0, before the end and after an append, until the next evaluation finds a value (R44, R46,
R84). -/
theorem test_hold_present :
    let held := ((ending false .empty).evaluateLane .az 5005000).1
    let appended := { ending true held.servo.causes with seq.motion := held.seq.motion }
    let free := (appended.evaluateLane .az 5005000).1
    let origin := fun s : State => s.present.get .az
    held.seq.motion = .degraded ∧
    held.servo.causes.heldAt = ⟨some (256 * 101002000), none, none⟩ ∧
    origin (ending false .empty) = ⟨256 * 101000000, 256000000⟩ ∧
    origin held = ⟨256 * 101002000, 0⟩ ∧ origin appended = origin held ∧
    free.servo.causes.hold .az = none ∧ origin free = origin (ending false .empty) := by
  decide +kernel

/-- Composed angles at the soft limits, beyond them, and beyond the counts (R93, R121). -/
theorem test_command_witness :
    let at_ := fun (mask : Byte) (mas : Int) =>
      State.commandStep { tracking with cond.mask := mask } .az 5005000 false |>.1 |>
        (fun u => (u.seq.motion, mas))
    let soft := fun (mask : Byte) (mas : Int) =>
      State.softStep { tracking with cond.mask := mask } .az 5005000 ⟨256 * mas, 0⟩
    (at_ 0x7F 0).1 = .tracking ∧
    (soft 0x7F 940000000).1.seq.motion = .tracking ∧
    (soft 0x7F 940000001).1.seq.motion = .degraded ∧
    (soft 0x7D 940000001).1.seq.active.map (·.record.targetId) = some 6 ∧
    (State.convertStep { tracking with cond.mask := 0x7F } .az 5005000
      ⟨256 * 2000000010, 0⟩).1.seq.motion = .degraded ∧
    (State.convertStep { tracking with cond.mask := 0x7B } .az 5005000
      ⟨256 * 2000000010, 0⟩).1.seq.active.map (·.record.targetId) = some 6 := by decide +kernel

/-- SETTLING that is late, not done, done to TRACKING and done to DEGRADED; TRACKING beyond its tolerance;
DEGRADED not done, done and beyond (R56, R60, R124, R125). -/
theorem test_error_witness :
    let settling := fun (begun : Nat) (hold : Bool) => ({ busy .settling with
      servo.settle := some ⟨begun, ⟨true, true, false⟩⟩
      servo.causes.underrunHold := ⟨hold, false, false⟩ } : State)
    let degraded := fun begun : Nat => ({ busy .degraded with
      servo.recover := some ⟨begun, ⟨true, true, false⟩⟩
      seq.spell := some ⟨4000000, false⟩
      servo.causes.trackError := ⟨true, false, false⟩ } : State)
    let done := 5000000 - 2000 * 1000
    ((settling done false).settleTest .rot 256000 false).seq.motion = .tracking ∧
    ((settling done true).settleTest .rot 256000 false).seq.motion = .degraded ∧
    ((settling (done + 1) false).settleTest .rot 256000 false).seq.motion = .settling ∧
    ((settling done false).settleTest .rot 256001 false).servo.settle =
      some ⟨5000000, .const false⟩ ∧
    ((busy .degraded).commandedThen .az 4999993).isSome = true ∧
    (tracking.trackTest .az 1280000) = tracking ∧
    (tracking.trackTest .az 1280001).seq.motion = .degraded ∧
    (State.trackTest { tracking with cond.mask := 0 } .az 1280001).seq.outcomes.length = 1 ∧
    ((degraded 4000000).recoverTest .rot 1280000 false).seq.motion = .tracking ∧
    ((degraded 4000001).recoverTest .rot 1280000 false).seq.motion = .degraded ∧
    ((degraded 4000000).recoverTest .rot 1280001 false).servo.recover =
      some ⟨5000000, .const false⟩ := by decide +kernel

/-- A standing park that completes, one sample at the tolerance and beyond it, and telemetry counted, copied
and without a destination (R71, R126, R127). -/
theorem test_park_telemetry_witness :
    let standing := fun off : Int => ({ idle with
      seq.motion := .parking
      servo.latest := .const (some { sampled 4900000 false with
        braked := false, measured := some (100000000 + off) })
      planner.current := .park { idle.parkPlan idle.holdMotion with arrival := 5000000 } } : State)
    let watched := fun (n : Nat) (dest : Option Byte) => ({ parked with
      servo.telemetryCount.az := n, site.telemetryDest := dest } : State).telemetryStep .az
    (standing 1000).parkTest.seq.motion = .parked ∧
    (standing 1001).parkTest.seq.motion = .parking ∧
    (watched 0 (some 0x41)).servo.telemetryCount.az = 1 ∧
    (watched 1 none).site.telemetry = [] ∧
    (watched 1 (some 0x41)).site.telemetry.length = 1 := by decide +kernel

/-! ## Alarms, edges and the events of time -/

theorem test_alarm_witness :
    let watched : State := { idle with
      servo.watch := .const (some { restart := 4900000, interval := 100000 }) }
    watched.seq.motion ≠ .alarm ∧ watched.watchDue .rot = true ∧
    alarmed.seq.motion = .alarm ∧ (AlarmKind.permitLost, none) ∉ alarmed.cond.causeSet ∧
    (AlarmKind.permitLost, none) ∈
      ({ alarmed with cond.causeSet := [(.permitLost, none)] } : State).cond.causeSet ∧
    idle.servo.watch.get .rot = none := by decide +kernel

/-- The 16th capture is taken and the 17th marks the overflow; with the mask bit clear an OPEN edge off
target ends the target. -/
theorem test_shutter_witness :
    let held := fun n : Nat => tracking.mapActive (fun a => { a with record := { a.record with
      captures := List.replicate n
        { edge := .closing, time := 0, state := .tracking, maxError := 0, stackTop := 0 } } })
    let opened := fun n => (after (.shutterEdge .opening) (held n)).seq.active
    (opened 15).map (·.record.captures.length) = some 16 ∧
    (opened 16).map (·.record.captureOverflow) = some true ∧
    (busy .settling).seq.motion ∈ [.slewing, .settling, .degraded] ∧
    (busy .settling).cond.mask.getLsbD 6 = true ∧
    (after (.shutterEdge .opening) { busy .settling with cond.mask := 0x3F }).seq.outcomes.map
      (fun e => (e.record.targetId, e.reason)) = [(5, .condition .shutterOffTarget)] ∧
    tracking.seq.motion ∉ [.slewing, .settling, .degraded] := by decide +kernel

def supervised (m : MotionState) (timer : Nat) : State := { busy m with
  seq.sup := { on := true, locked := true, interval := 1, grace := 1, timer := some timer
               lapsed := false, graceCount := some 1000000 } }

theorem test_lapse_witness :
    (supervised .tracking 4000000).lapseDue = true ∧
    (supervised .tracking 4000001).lapseDue = false ∧
    (supervised .tracking 4000000).seq.motion.running = true ∧
    (supervised .tracking 4000000).seq.active = some (running 5) ∧
    (supervised .tracking 4000000).seq.sup.grace * 1000000 ≤ 1000000 ∧
    (after .supervisionLapse { supervised .tracking 4000000 with
      seq.sup.grace := 0 }).seq.motion = .parking ∧
    (∀ m ∈ [MotionState.idle, .stopping, .parking, .parked, .alarm],
      (supervised m 4000000).lapseDue = true) := by decide +kernel

def slewEnding (arrival : Nat) : State := { busy .slewing with
  planner.current := .slew { idle.parkPlan idle.holdMotion with arrival } }

theorem test_completions_witness :
    let past := fun c s => (after c s).seq.motion
    ((withContext (fun c => { c with
      dwellRemaining := 0, guide := { c.guide with state := .locked } })).seq.active.any
        (fun a => decide (a.ctx.dwellRemaining = 0) && decide (a.ctx.guide.state = .locked))) ∧
    past .slewCompletion (slewEnding 5000000) = .settling ∧
    past .slewCompletion (slewEnding 5000001) = .slewing ∧
    past .stopCompletion (stopEnding 5000000 true) = .parking ∧
    past .stopCompletion (stopEnding 5000000 false) = .idle ∧
    past .stopCompletion (stopEnding 5000001 false) = .stopping := by decide +kernel

/-- A target waits in the queue with a latest_start and, or not, its expiry handed over. -/
def windowed (latest : Nat) (handed : List Nat) : State := { tracking with
  seq.queue := [{ record 7 with latestStart := some latest }], seq.expiryHanded := handed }

/-- An expiry handed over is taken, in IDLE too, and one that is not handed over does nothing. -/
theorem test_window_witness :
    let past := fun s : State => (after (.windowExpiry 7) s).seq.queue.length
    let s := windowed 4999999 [7]
    past s = 0 ∧ past (windowed 5000000 []) = 1 ∧
    past { idle with seq.queue := s.seq.queue, seq.expiryHanded := [7] } = 0 ∧
    s.seq.motion ≠ .idle ∧ (∀ r ∈ s.standing, 1 ≤ r.targetId ∧ r.targetId ≤ 65535) := by
  decide +kernel

/-- A window at mount time has not passed; the next microsecond hands its expiry over, and a backward
change of mount time before the expiry is taken undoes it not: the record leaves (R165). -/
theorem test_window_handed :
    let t := (windowed 5000000 []).tick
    let back := fun s : State => (setTimeBody (natBytes 8 4999500) s).1.seq
    (windowed 5000000 []).expiryDue = none ∧ t.seq.expiryHanded = [7] ∧
    t.expiryDue = some (.windowExpiry 7) ∧ (t.turnBack 4999500).expiryDue = t.expiryDue ∧
    (back t).queue = [] ∧ (back t).expiryHanded = [] ∧
    (back (windowed 5000000 [])).queue.length = 1 ∧
    (({ windowed 4999999 [] with time.valid := false } : State).tick).seq.expiryHanded = [] ∧
    (back { windowed 4999400 [] with time.valid := false }).queue = [] := by decide +kernel

/-- IDLE with the queue in RUN and one target whose chains run for a time. -/
def waiting (duration : Nat) : State := { idle with
  seq.startHanded := true, seq.mode := .run, seq.queue := [record 7], chains := chains 7 duration }

/-- The choices of `ActivationTestAtStartTime` for the one target: a covered plan, a plan that lacks
cover, no cover, and no trajectory. -/
theorem test_activation_witness :
    let choice := fun s : State => State.chooseWrapFor { s with
      chains := retireTarget s.chains 7 5000000 } s.holdMotion (record 7)
        (.fresh 2000 5000000 0)
    let planned := fun (duration : Nat) (b : Bool) => match choice (waiting duration) with
      | .plan p => decide (targetCovers (retireTarget (waiting duration).chains 7 5000000)
          (record 7) p.arrival (p.arrival + (waiting 0).planner.globals.activationCover * 1000000)
            = b)
      | .noCover _ | .noTrajectory => false
    planned 80000000 true = true ∧ planned 40000000 false = true ∧
    (match choice { waiting 0 with chains := [] } with
      | .noCover _ => true
      | .plan _ | .noTrajectory => false) = true ∧
    (match choice { waiting 80000000 with
        planner.limits := some { limits with az := { wide with softMin := 0, softMax := 1 } } } with
      | .noTrajectory => true
      | .plan _ | .noCover _ => false) = true := by decide +kernel

/-- The event is taken once: it activates, asks for segments, or is only gone; without it nothing happens
(R51 to R54, R164). -/
theorem test_start_taken :
    let past := after .startTimeReached
    (past (waiting 80000000)).seq.motion = .slewing ∧
    (past (waiting 40000000)).seq.starved = true ∧
    (past (waiting 40000000)).rep.queue.length = 1 ∧
    past { waiting 80000000 with seq.mode := .hold } =
      { waiting 80000000 with seq.mode := .hold, seq.startHanded := false } ∧
    past { waiting 80000000 with seq.startHanded := false } =
      { waiting 80000000 with seq.startHanded := false } := by decide +kernel

/-- An axis that the second pass made the longest keeps that pass's target, and the others go to the
state at the arrival (R87). -/
theorem test_slew_targets :
    let still : Motion := ⟨0, 0⟩
    let second : Lanes Motion := ⟨⟨256000000, 0⟩, still, still⟩
    let last : Lanes Motion := .const ⟨512000000, 0⟩
    let t2 := idle.axisTime .az still ⟨256000000, 0⟩
    idle.slewTargets (.const still) second last 5 t2 =
      ⟨⟨256000000, 0⟩, ⟨512000000, 0⟩, ⟨512000000, 0⟩⟩ ∧
    idle.slewTargets (.const still) second last t2 t2 = last := by decide +kernel

/-- A stop profile of an axis beyond its soft limit and moving outward stands still before its make time as
at it (R84). -/
theorem test_stop_before_make :
    let p := idle.stopPlan (.const ⟨256 * 950000000, 1000⟩)
    (p.axes.get .az).restTime = p.makeTime ∧
    p.value .az (p.makeTime - 1) = p.value .az p.makeTime ∧
    p.value .az p.makeTime = ⟨256 * 950000000, 0⟩ := by decide +kernel

/-- Where every cruise velocity between two end velocities fits, the one of greatest magnitude is taken
(R85): direct ramps of 5 seconds at 1 unit, down to rest and up from it. -/
theorem test_cruise_of_greatest_magnitude :
    cruiseFor 1 10 (-5) 0 (-250) 5000000 = some (-5 * 2 ^ 64) ∧
    cruiseFor 1 10 0 (-5) (-250) 5000000 = some (-5 * 2 ^ 64) ∧
    cruiseFor 1 10 5 0 250 5000000 = some (5 * 2 ^ 64) := by decide +kernel

end Sys2Proof.Tests
end

/-! # The target queue: obligations O3, O5, O6, O10, O18 to O22, O24, O31, O54, O55, O58 -/

namespace Sys2Proof.Machine

-- Proofs are elaborated one after another: each proof that waits for another one takes a thread, and the
-- memory limit of the check bounds their number.
set_option Elab.async false

/-! ## What the stores hold, block by block

`State.bounded` is one long conjunction. Here it stands as a structure with one field for each store, so that
a proof about an operation names the stores that the operation touches and hands on the others. -/

/-- A record's capture list holds no more than the manual gives it (R4). -/
def TargetRecord.capturesFit (r : TargetRecord) : Prop := r.captures.length ≤ Config.captureSize

/-- The Site Port's stores, its link-error count, its receiver and its return slots (R127, R169, R172,
R173, R176, R178). -/
structure SitePort.Fits (p : SitePort) : Prop where
  requests : p.requests.length ≤ Config.requestSize
  responses : p.responses.length ≤ Config.responseSize
  telemetry : p.telemetry.length ≤ Config.telemetrySize
  forwarding : p.forwarding.length ≤ Config.forwardingSize
  linkErrors : p.linkErrors ≤ Config.linkErrorMax
  rx : p.rx.bounded
  returns : (p.returns.map (·.axis)).Nodup

/-- An axis port's receiver, service queue and link-error count (R129, R169). -/
structure AxisPort.Fits (p : AxisPort) : Prop where
  rx : p.rx.bounded
  service : p.service.length ≤ Config.serviceSize
  linkErrors : p.linkErrors ≤ Config.linkErrorMax

/-- The cause set names pairs that can be, each at most once (R154, R155). -/
structure ConditionUnit.Fits (c : ConditionUnit) : Prop where
  distinct : c.causeSet.Nodup
  pairs : ∀ p ∈ c.causeSet, alarmPair p.1 p.2

/-- `State.bounded` store by store. -/
structure State.Fits (s : State) : Prop where
  queue : s.seq.queue.length ≤ Config.queueSize
  shelf : s.seq.shelf.length ≤ Config.shelfSize
  outcomes : s.seq.outcomes.length ≤ Config.outcomeSize
  queued : ∀ r ∈ s.seq.queue, r.capturesFit
  active : ∀ a ∈ s.seq.active, a.record.capturesFit
  shelved : ∀ e ∈ s.seq.shelf, e.record.capturesFit
  listed : ∀ e ∈ s.seq.outcomes, e.record.capturesFit
  rep : s.rep.queue.length ≤ Config.reportSize
  staged : s.corr.staged.length ≤ Config.termSize
  terms : s.corr.active.length ≤ Config.termSize
  cond : s.cond.Fits
  site : s.site.Fits
  ports : ∀ x : Lane, (s.ports.get x).Fits

/-- The ten pairs of alarm kind and axis that can join the cause set (R154, R155). -/
def alarmPairs : List (AlarmKind × Option Lane) :=
  (.permitLost, none) :: allLanes.flatMap (fun x =>
    [(.encoderSilent, some x), (.hardLimit, some x), (.driveFault, some x)])

theorem mem_alarmPairs {k : AlarmKind} {axis : Option Lane} (h : alarmPair k axis) :
    (k, axis) ∈ alarmPairs := by
  unfold alarmPair at h
  rcases axis with _ | x
  · obtain rfl := h.mpr rfl
    decide
  · cases k <;> cases x <;> simp_all <;> decide

/-- A cause set without repetition holds at most ten pairs (R155). -/
theorem ConditionUnit.Fits.length {c : ConditionUnit} (h : c.Fits) : c.causeSet.length ≤ 10 :=
  (h.distinct.subperm (fun p hp => mem_alarmPairs (h.pairs p hp))).length_le

theorem State.mem_recorded (s : State) (r : TargetRecord) :
    r ∈ s.standing ++ s.seq.outcomes.map (·.record) ↔
      r ∈ s.seq.queue ∨ (∃ a ∈ s.seq.active, a.record = r) ∨ (∃ e ∈ s.seq.shelf, e.record = r) ∨
        ∃ e ∈ s.seq.outcomes, e.record = r := by
  cases h : s.seq.active <;> simp [State.standing, h, eq_comm (a := r)]

theorem State.bounded_iff (s : State) : s.bounded ↔ s.Fits := by
  constructor
  · rintro ⟨hq, hs, ho, hreq, hresp, htel, hfwd, hrep, hst, hac, hle, hrx, hret, hcap, -, hnd, hpair,
      hports⟩
    have hcap' := fun r h => hcap r ((s.mem_recorded r).mpr h)
    exact
      { queue := hq, shelf := hs, outcomes := ho
        queued := fun r h => hcap' r (.inl h)
        active := fun a h => hcap' _ (.inr (.inl ⟨a, h, rfl⟩))
        shelved := fun e h => hcap' _ (.inr (.inr (.inl ⟨e, h, rfl⟩)))
        listed := fun e h => hcap' _ (.inr (.inr (.inr ⟨e, h, rfl⟩)))
        rep := hrep, staged := hst, terms := hac, cond := ⟨hnd, hpair⟩
        site := ⟨hreq, hresp, htel, hfwd, hle, hrx, hret⟩
        ports := fun x => ⟨(hports x).1, (hports x).2.1, (hports x).2.2⟩ }
  · intro h
    refine ⟨h.queue, h.shelf, h.outcomes, h.site.requests, h.site.responses, h.site.telemetry,
      h.site.forwarding, h.rep, h.staged, h.terms, h.site.linkErrors, h.site.rx, h.site.returns, ?_,
      h.cond.length, h.cond.distinct, h.cond.pairs,
      fun x => ⟨(h.ports x).rx, (h.ports x).service, (h.ports x).linkErrors⟩⟩
    intro r hr
    rcases (s.mem_recorded r).mp hr with hr | ⟨a, ha, rfl⟩ | ⟨e, he, rfl⟩ | ⟨e, he, rfl⟩
    · exact h.queued r hr
    · exact h.active a ha
    · exact h.shelved e he
    · exact h.listed e he

/-- The target_ids that stand in the queue, the slot and the shelf (R6). -/
def State.ids (s : State) : List Nat := s.standing.map (·.targetId)

theorem State.ids_eq (s : State) :
    s.ids = s.seq.queue.map (·.targetId) ++ (s.seq.active.toList.map (·.record.targetId) ++
      s.seq.shelf.map (·.record.targetId)) := by
  cases h : s.seq.active <;> simp [State.ids, State.standing, h]

theorem State.idsValid_iff (s : State) : s.idsValid ↔ ∀ id ∈ s.ids, 1 ≤ id ∧ id ≤ 65535 := by
  simp [State.idsValid, State.ids]

/-! ## What an operation that takes in nothing can do to the stores -/

/-- `t` follows from `s` by operations that take in no record and store no segment: every store stays within
its bound and the clock within its range, no response is added, no target_id appears that did not stand, and
each chain is one that was there with no more segments. -/
structure State.Follows (s t : State) : Prop where
  fits : s.Fits → t.Fits
  clock : s.clockFits → t.clockFits
  responses : t.site.responses.length ≤ s.site.responses.length
  ids : t.ids.Subperm s.ids
  chains : ∀ c ∈ t.chains, ∃ d ∈ s.chains, d.key = c.key ∧ c.count ≤ d.count

theorem State.Follows.refl (s : State) : s.Follows s :=
  ⟨id, id, le_rfl, .refl _, fun c hc => ⟨c, hc, rfl, le_rfl⟩⟩

theorem State.Follows.trans {s t u : State} (h : s.Follows t) (k : t.Follows u) : s.Follows u where
  fits := k.fits ∘ h.fits
  clock := k.clock ∘ h.clock
  responses := k.responses.trans h.responses
  ids := k.ids.trans h.ids
  chains c hc := by
    obtain ⟨d, hd, hk, hn⟩ := k.chains c hc
    obtain ⟨e, he, hk', hn'⟩ := h.chains d hd
    exact ⟨e, he, hk'.trans hk, hn.trans hn'⟩

/-- An operation that leaves every store and the clock alone. -/
theorem State.Follows.of_stores {s t : State} (queue : t.seq.queue = s.seq.queue := by rfl)
    (active : t.seq.active = s.seq.active := by rfl) (shelf : t.seq.shelf = s.seq.shelf := by rfl)
    (outcomes : t.seq.outcomes = s.seq.outcomes := by rfl) (rep : t.rep = s.rep := by rfl)
    (corr : t.corr = s.corr := by rfl) (cond : t.cond = s.cond := by rfl)
    (site : t.site = s.site := by rfl) (ports : t.ports = s.ports := by rfl)
    (chains : t.chains = s.chains := by rfl) (time : t.time = s.time := by rfl) : s.Follows t where
  fits h :=
    { queue := queue ▸ h.queue, shelf := shelf ▸ h.shelf, outcomes := outcomes ▸ h.outcomes
      queued := queue ▸ h.queued, active := active ▸ h.active, shelved := shelf ▸ h.shelved
      listed := outcomes ▸ h.listed, rep := rep ▸ h.rep, staged := corr ▸ h.staged
      terms := corr ▸ h.terms, cond := cond ▸ h.cond, site := site ▸ h.site
      ports := ports ▸ h.ports }
  clock h := by unfold State.clockFits at *; rw [time]; exact h
  responses := by rw [site]
  ids := by rw [State.ids_eq, State.ids_eq, queue, active, shelf]
  chains c hc := ⟨c, chains ▸ hc, rfl, le_rfl⟩

/-- One lane's port changed, where the change keeps what fits. -/
theorem State.mapPort_follows (s : State) (x : Lane) (f : AxisPort → AxisPort)
    (hf : (s.ports.get x).Fits → (f (s.ports.get x)).Fits) : s.Follows (s.mapPort x f) where
  fits h := { h with
    ports := fun y => by
      by_cases hy : y = x
      · subst hy; rw [State.mapPort_self]; exact hf (h.ports y)
      · rw [State.mapPort_other s f hy]; exact h.ports y }
  clock := id
  responses := le_rfl
  ids := .refl _
  chains c hc := ⟨c, hc, rfl, le_rfl⟩

/-- Every axis port changed, where the change keeps what fits. -/
theorem State.ports_follow (s : State) (f : Lane → AxisPort)
    (hf : ∀ x, (s.ports.get x).Fits → (f x).Fits) : s.Follows { s with ports := .of f } where
  fits h := { h with ports := fun x => by simpa using hf x (h.ports x) }
  clock := id
  responses := le_rfl
  ids := .refl _
  chains c hc := ⟨c, hc, rfl, le_rfl⟩

/-- A report offered (R182). -/
theorem State.report_follows (s : State) (d : ReportDetail) (i : Nat) : s.Follows (s.report d i) where
  fits h := { h with rep := offerReport_length d _ i h.rep }
  clock := id
  responses := le_rfl
  ids := .refl _
  chains c hc := ⟨c, hc, rfl, le_rfl⟩

/-- The running target changed, its target_id kept and its capture list still one that fits. -/
theorem State.mapActive_follows_of (s : State) {f : Running → Running}
    (hid : ∀ a, (f a).record.targetId = a.record.targetId)
    (hcap : ∀ a, a.record.capturesFit → (f a).record.capturesFit) : s.Follows (s.mapActive f) where
  fits h := { h with
    active := by
      intro a ha
      obtain ⟨b, hb, rfl⟩ := Option.mem_map.mp ha
      exact hcap b (h.active b hb) }
  clock := id
  responses := le_rfl
  ids := by
    have : (s.mapActive f).ids = s.ids := by
      cases ha : s.seq.active <;> simp [State.ids_eq, ha, hid]
    rw [this]
  chains c hc := ⟨c, hc, rfl, le_rfl⟩

/-- The running target changed, its identity and capture list kept. -/
theorem State.mapActive_follows (s : State) {f : Running → Running} (hf : Running.keeps f) :
    s.Follows (s.mapActive f) :=
  State.mapActive_follows_of s (fun a => (hf a).1)
    (fun a h => by unfold TargetRecord.capturesFit; rw [(hf a).2.2.1]; exact h)

/-- The running context changed. -/
theorem State.mapContext_follows (s : State) (f : Context → Context) : s.Follows (s.mapContext f) :=
  State.mapActive_follows_of s (fun _ => rfl) (fun _ h => h)

/-! ## Departures (R16, R19 to R21, R45) -/

/-- The chains a departure leaves were there before. -/
theorem State.departed_chains (s : State) (es : List OutcomeEntry) {c : Chain}
    (hc : c ∈ (s.departed es).chains) :
    c ∈ s.chains ∧ c.owner ∉ es.map (·.record.targetId) := by
  simpa [State.departed] using hc

theorem pushOutcome_forall {l : List OutcomeEntry} {e : OutcomeEntry} {p : OutcomeEntry → Prop}
    (hl : ∀ d ∈ l, p d) (he : p e) : ∀ d ∈ pushOutcome l e, p d := by
  intro d hd
  unfold pushOutcome at hd
  rcases List.mem_append.mp hd with hd | hd
  · split at hd
    · exact hl d (List.mem_of_mem_drop hd)
    · exact hl d hd
  · obtain rfl := List.mem_singleton.mp hd
    exact he

/-- Departures of records whose capture lists fit keep every store within its bound. -/
theorem State.departed_fits (es : List OutcomeEntry) (hes : ∀ e ∈ es, e.record.capturesFit) :
    ∀ {s : State}, s.Fits → (s.departed es).Fits := by
  induction es with
  | nil => intro s h; exact { h with }
  | cons e es ih =>
    intro s h
    rw [← List.singleton_append, ← State.departed_append]
    refine ih (fun d hd => hes d (List.mem_cons_of_mem _ hd)) ?_
    exact { h with
      outcomes := pushOutcome_length e h.outcomes
      listed := pushOutcome_forall h.listed (hes e List.mem_cons_self)
      rep := offerReport_length _ _ _ h.rep }

/-- What follows a departure: the records that leave stood with capture lists that fit, and the places lose
target_ids only. -/
theorem State.departed_follows (s t : State) (es : List OutcomeEntry)
    (hes : s.Fits → ∀ e ∈ es, e.record.capturesFit)
    (queue : t.seq.queue.Sublist s.seq.queue)
    (active : t.seq.active = none ∨ t.seq.active = s.seq.active)
    (shelf : t.seq.shelf.Sublist s.seq.shelf)
    (outcomes : t.seq.outcomes = (s.departed es).seq.outcomes := by rfl)
    (rep : t.rep = (s.departed es).rep := by rfl)
    (chains : t.chains = (s.departed es).chains := by rfl)
    (corr : t.corr = s.corr := by rfl) (cond : t.cond = s.cond := by rfl)
    (site : t.site = s.site := by rfl) (ports : t.ports = s.ports := by rfl)
    (time : t.time = s.time := by rfl) : s.Follows t where
  fits h :=
    have hd := State.departed_fits es (hes h) h
    { queue := queue.length_le.trans h.queue, shelf := shelf.length_le.trans h.shelf
      outcomes := outcomes ▸ hd.outcomes, queued := fun r hr => h.queued r (queue.mem hr)
      active := fun a ha => by
        rcases active with k | k
        · rw [k] at ha; cases ha
        · exact h.active a (k ▸ ha)
      shelved := fun e he => h.shelved e (shelf.mem he)
      listed := outcomes ▸ hd.listed, rep := rep ▸ hd.rep, staged := corr ▸ h.staged
      terms := corr ▸ h.terms, cond := cond ▸ h.cond, site := site ▸ h.site
      ports := ports ▸ h.ports }
  clock h := by unfold State.clockFits at *; rw [time]; exact h
  responses := by rw [site]
  ids := by
    rw [State.ids_eq, State.ids_eq]
    refine (List.Sublist.append (queue.map _) (List.Sublist.append ?_ (shelf.map _))).subperm
    rcases active with k | k <;> rw [k]
    exact List.nil_sublist _
  chains c hc := ⟨c, (s.departed_chains es (chains ▸ hc)).1, rfl, le_rfl⟩

theorem State.departQueued_follows (s : State) {r : TargetRecord} (hr : r ∈ s.seq.queue) (v : Verdict)
    (why : Reason) : s.Follows (s.departQueued r v why) := by
  refine State.departed_follows s _
    [{ record := r, verdict := v, reason := why, axis := none, time := s.time.mount, place := .queued }]
    ?_ List.filter_sublist (.inr rfl) (List.Sublist.refl _) (chains := releaseChains_eq _ _)
  simpa using fun h => State.Fits.queued h r hr

theorem State.departShelved_follows (s : State) {e : Running} (he : e ∈ s.seq.shelf) (v : Verdict)
    (why : Reason) : s.Follows (s.departShelved e v why) := by
  refine State.departed_follows s _
    [{ record := e.record, verdict := v, reason := why, axis := none, time := s.time.mount
       place := .shelved }]
    ?_ (List.Sublist.refl _) (.inr rfl) List.filter_sublist (chains := releaseChains_eq _ _)
  simpa using fun h => State.Fits.shelved h e he

theorem State.abandonShelf_follows (s : State) (why : Reason) : s.Follows (s.abandonShelf why) := by
  rw [State.abandonShelf_eq]
  refine State.departed_follows s _ _ ?_ (List.Sublist.refl _) (.inr rfl) (List.nil_sublist _)
  simpa [leaving] using fun h e he => State.Fits.shelved h e he

theorem State.departActive_follows (s : State) (v : Verdict) (why : Reason) (x : Option Lane) :
    s.Follows (s.departActive v why x) := by
  cases ha : s.seq.active with
  | none => rw [State.departActive_of_empty v why x ha]; exact .refl s
  | some a =>
    rw [State.departActive_eq v why x ha]
    refine State.departed_follows s _ _ ?_ (List.Sublist.refl _) (.inl rfl) (List.Sublist.refl _)
    intro h e he
    obtain rfl := List.mem_singleton.mp he
    exact h.active a ha

/-- The records left in a queue after some have been taken out one after another, and what the replacements
of the queue made of its three marks. -/
theorem State.departAllQueued_eq (v : Verdict) (why : Reason) (rs : List TargetRecord) :
    ∀ s : State, ∃ starved startHanded expiryHanded,
      s.departAllQueued rs v why =
        { s.departed (leaving rs v why .queued s.time.mount) with
          seq := { (s.departed (leaving rs v why .queued s.time.mount)).seq with
            queue := withoutRecords s.seq.queue rs, starved, startHanded, expiryHanded } } := by
  induction rs with
  | nil =>
    intro s
    refine ⟨s.seq.starved, s.seq.startHanded, s.seq.expiryHanded, ?_⟩
    simp [State.departAllQueued, leaving, State.departed, withoutRecords]
  | cons r rs ih =>
    intro s
    obtain ⟨starved, startHanded, expiryHanded, h⟩ := ih (s.departQueued r v why)
    refine ⟨starved, startHanded, expiryHanded, ?_⟩
    have hq : withoutRecords (s.departQueued r v why).seq.queue rs =
        withoutRecords s.seq.queue (r :: rs) := by
      simp only [withoutRecords, State.departQueued_seq, List.filter_filter]
      refine List.filter_congr (fun q _ => ?_)
      by_cases hq : q.targetId = r.targetId <;> simp [hq]
    have hd : s.departQueued r v why =
        (s.setQueue (s.seq.queue.filter (fun q => q.targetId != r.targetId))).departed
          (leaving [r] v why .queued s.time.mount) := State.depart_eq _ _ _ _ _ _
    have hl : leaving (r :: rs) v why .queued s.time.mount =
      leaving [r] v why .queued s.time.mount ++ leaving rs v why .queued s.time.mount := rfl
    have hm : (s.departQueued r v why).departed (leaving rs v why .queued s.time.mount) =
        (s.setQueue (s.seq.queue.filter (fun q => q.targetId != r.targetId))).departed
          (leaving (r :: rs) v why .queued s.time.mount) := by
      rw [hd, State.departed_append, hl]
    show (s.departQueued r v why).departAllQueued rs v why = _
    rw [h, hq, show (s.departQueued r v why).time.mount = s.time.mount from rfl, hm]
    rfl

theorem State.departAllQueued_follows (s : State) (rs : List TargetRecord) (v : Verdict) (why : Reason)
    (hr : ∀ r ∈ rs, r ∈ s.seq.queue) : s.Follows (s.departAllQueued rs v why) := by
  obtain ⟨starved, startHanded, expiryHanded, h⟩ := State.departAllQueued_eq v why rs s
  rw [h]
  refine State.departed_follows s _ _ ?_ List.filter_sublist (.inr rfl) (List.Sublist.refl _)
  simpa [leaving] using fun h r hrs => State.Fits.queued h r (hr r hrs)

theorem State.expireHanded_follows (s : State) : s.Follows s.expireHanded :=
  State.departAllQueued_follows s _ _ _ (fun _ h => List.mem_of_mem_filter h)

/-- A queue replaced by some of its records. -/
theorem State.setQueue_follows (s : State) {q : List TargetRecord} (h : q.Sublist s.seq.queue) :
    s.Follows (s.setQueue q) :=
  State.departed_follows s _ [] (by simp) h (.inr rfl) (List.Sublist.refl _)
    (chains := by simp [State.departed])

/-! ## The guide state and the entries to a motion state (R47, R103, R138) -/

theorem State.endSpell_follows (s : State) : s.Follows s.endSpell := by
  obtain ⟨f, hf, h⟩ := State.endSpell_eq s
  rw [h]
  exact (State.mapActive_follows s hf).trans .of_stores

theorem State.mapGuide_follows (s : State) (f : GuideContext → GuideContext) :
    s.Follows (s.mapGuide f) :=
  State.mapActive_follows s (Running.keeps_guide f)

theorem State.mapStats_follows (s : State) (f : Statistics → Statistics) : s.Follows (s.mapStats f) :=
  State.mapActive_follows s (Running.keeps_stats f)

theorem State.reportGuide_follows (s : State) (left : GuideState) (cause : GuideCause) :
    s.Follows (s.reportGuide left cause) := by
  unfold State.reportGuide
  split
  · exact .refl s
  · exact State.report_follows _ _ _

theorem State.usedGuideFree_follows (s : State) : s.Follows s.usedGuideFree := .of_stores

theorem State.startAcquiring_follows (s : State) (cause : GuideCause) :
    s.Follows (s.startAcquiring cause) :=
  ((State.mapGuide_follows s _).trans (State.usedGuideFree_follows _)).trans
    (State.reportGuide_follows _ _ _)

theorem State.loseGuide_follows (s : State) (left : GuideState) (cause : GuideCause) :
    s.Follows (s.loseGuide left cause) :=
  ((State.mapGuide_follows s _).trans (State.usedGuideFree_follows _)).trans
    (State.reportGuide_follows _ _ _)

/-- The staged terms copied over the active ones (R102, R103). -/
theorem State.commit_follows (s : State) :
    s.Follows { s with corr.active := s.corr.staged, corr.commitPending := false } where
  fits h := { h with terms := h.staged }
  clock := id
  responses := le_rfl
  ids := .refl _
  chains c hc := ⟨c, hc, rfl, le_rfl⟩

theorem State.deferredCommit_follows (s : State) : s.Follows s.deferredCommit := by
  unfold State.deferredCommit
  split
  · exact s.commit_follows.trans (State.report_follows _ _ _)
  · exact .refl s

theorem State.enterTracking_follows (s : State) : s.Follows s.enterTracking := by
  unfold State.enterTracking
  dsimp only
  split
  · split
    · exact (State.mapStats_follows s _).trans (State.startAcquiring_follows _ _)
    · exact State.mapStats_follows s _
  · exact State.mapStats_follows s _

theorem State.leaveMotion_follows (s : State) : s.Follows s.leaveMotion := by
  obtain ⟨f, spell, settle, hf, h, -⟩ := State.leaveMotion_eq s
  rw [h]
  exact (State.mapActive_follows s hf).trans .of_stores

theorem State.enter_follows (s : State) (m : MotionState) : s.Follows (s.enter m) := by
  have h : s.Follows (State.report { s.leaveMotion with seq.motion := m }
      (.phaseChange s.seq.motion m) s.leaveMotion.activeId) :=
    ((State.leaveMotion_follows s).trans .of_stores).trans (State.report_follows _ _ _)
  cases m with
  | slewing | stopping | idle => exact h.trans (State.deferredCommit_follows _)
  | tracking => exact h.trans (State.enterTracking_follows _)
  | settling | degraded => exact h.trans .of_stores
  | parked | parking | alarm => exact h

/-! ## Activation and restores (R51 to R54, R64, R65) -/

/-- A record in the slot with its capture list and target_id, whatever the slot held, under a slew. -/
theorem State.takeSlot_follows {s t : State} {a : Running} (p : SlewPlan)
    (hfits : s.Fits → t.Fits ∧ a.record.capturesFit) (hclock : s.clockFits → t.clockFits)
    (hresp : t.site.responses.length ≤ s.site.responses.length)
    (hids : (t.seq.queue.map (·.targetId) ++
      (a.record.targetId :: t.seq.shelf.map (·.record.targetId))).Subperm s.ids)
    (hchains : ∀ c ∈ t.chains, ∃ d ∈ s.chains, d.key = c.key ∧ c.count ≤ d.count) :
    s.Follows (t.takeSlot a p) := by
  unfold State.takeSlot
  refine State.Follows.trans ?_ (State.enter_follows _ _)
  refine ⟨fun h => { (hfits h).1 with active := ?_ }, hclock, hresp, ?_, hchains⟩
  · intro b hb
    obtain rfl := Option.mem_some_iff.mp hb
    exact (hfits h).2
  · rw [State.ids_eq]
    exact hids

theorem Chain.retire_follows (c : Chain) (t : Nat) :
    (c.retire t).key = c.key ∧ (c.retire t).count ≤ c.count := ⟨rfl, c.retire_count t⟩

/-- A change of some chains that keeps their headers and adds no segment. -/
theorem State.chains_follow (s : State) (p : Chain → Bool) (f : Chain → Chain)
    (hf : ∀ c, (f c).key = c.key ∧ (f c).count ≤ c.count) :
    s.Follows { s with chains := s.chains.map (fun c => if p c then f c else c) } where
  fits h := { h with }
  clock := id
  responses := le_rfl
  ids := .refl _
  chains c hc := by
    obtain ⟨d, hd, rfl⟩ := List.mem_map.mp hc
    refine ⟨d, hd, ?_⟩
    split
    · exact ⟨(hf d).1.symm, (hf d).2⟩
    · exact ⟨rfl, le_rfl⟩

theorem State.retireTarget_follows (s : State) (id t : Nat) :
    s.Follows { s with chains := retireTarget s.chains id t } :=
  State.chains_follow s _ _ (fun c => c.retire_follows t)

theorem State.mapChain_follows (s : State) (id : Nat) (x : Lane) {f : Chain → Chain}
    (hf : ∀ c, (f c).key = c.key ∧ (f c).count ≤ c.count) :
    s.Follows { s with chains := mapChain s.chains id x f } :=
  State.chains_follow s _ _ hf

theorem State.starve_follows (s : State) (r : TargetRecord) (t : Nat) (c : Lanes Bool) :
    s.Follows (s.starve r t c) := by
  unfold State.starve
  split
  · exact .refl s
  · exact State.Follows.trans .of_stores (State.report_follows _ _ _)

/-- The head of the queue activated. -/
theorem State.activate_follows {s : State} {r : TargetRecord} {rest : List TargetRecord}
    (hq : s.seq.queue = r :: rest) (p : SlewPlan) : s.Follows ((s.setQueue rest).activate r p) := by
  have hk := State.setQueue_follows s (hq ▸ List.sublist_cons_self r rest : rest.Sublist s.seq.queue)
  refine State.takeSlot_follows p (fun h => ⟨hk.fits h, h.queued r (hq ▸ List.mem_cons_self)⟩)
    hk.clock hk.responses ?_ hk.chains
  rw [State.ids_eq, hq]
  exact (List.perm_middle.subperm.trans
    ((List.Sublist.append (List.Sublist.refl _) (List.sublist_append_right _ _)).cons_cons _).subperm)

theorem activationTest_follows (inRule : Bool) (o : Lanes Motion) :
    ∀ (n : Nat) (s : State), s.Follows (activationTest inRule o n s) := by
  intro n
  induction n with
  | zero => intro s; exact .refl s
  | succ n ih =>
    intro s
    unfold activationTest
    split
    · exact .refl s
    · rename_i r rest hq
      have h0 := State.retireTarget_follows s r.targetId s.time.mount
      split
      · dsimp only
        split
        · exact h0.trans (State.starve_follows _ _ _ _)
        · exact (h0.trans (State.departQueued_follows _ (hq ▸ List.mem_cons_self) _ _)).trans (ih _)
        · split
          · refine h0.trans (State.activate_follows ?_ _)
            exact hq
          · exact h0.trans (State.starve_follows _ _ _ _)
      · exact .refl s

theorem State.testActivation_follows (s : State) : s.Follows s.testActivation :=
  activationTest_follows _ _ _ s

theorem State.enterIdle_follows (s : State) (hold : Lanes Int) : s.Follows (s.enterIdle hold) :=
  ((State.Follows.of_stores).trans (State.enter_follows _ _)).trans (State.testActivation_follows _)

theorem State.retestIfHeadChanged_follows (s before : State) :
    s.Follows (s.retestIfHeadChanged before) := by
  unfold State.retestIfHeadChanged
  split
  · exact .refl s
  · exact State.testActivation_follows s

theorem restoreShelf_follows (o : Lanes Motion) :
    ∀ (n : Nat) (s : State), s.Follows (restoreShelf o n s) := by
  intro n
  induction n with
  | zero => intro s; exact .refl s
  | succ n ih =>
    intro s
    unfold restoreShelf
    split
    · exact .refl s
    · rename_i e rest hq
      dsimp only
      have h0 := State.retireTarget_follows s e.record.targetId s.time.mount
      have hsub : rest.Sublist s.seq.shelf := hq ▸ List.sublist_cons_self e rest
      have hfit : s.Fits → e.record.capturesFit := fun h => h.shelved e (hq ▸ List.mem_cons_self)
      have hpop : s.Follows { s with
          seq.shelf := rest, chains := retireTarget s.chains e.record.targetId s.time.mount } :=
        h0.trans (State.departed_follows _ _ [] (by simp) (List.Sublist.refl _) (.inr rfl) hsub
          (chains := by simp [State.departed]))
      have hfail := (h0.trans (State.departed_follows _
          (State.depart { s with
              seq.shelf := rest
              chains := retireTarget s.chains e.record.targetId s.time.mount }
            e.record .abandoned .noTrajectory none .shelved)
          [{ record := e.record, verdict := .abandoned, reason := .noTrajectory, axis := none
             time := s.time.mount, place := .shelved }]
          (by simpa using fun h => State.Fits.shelved h e (hq ▸ List.mem_cons_self))
          (List.Sublist.refl _) (.inr rfl) hsub (chains := releaseChains_eq _ _))).trans (ih _)
      split
      · split
        · refine State.takeSlot_follows _ (fun h => ⟨hpop.fits h, hfit h⟩) hpop.clock hpop.responses ?_
            hpop.chains
          rw [State.ids_eq, hq]
          exact (List.Sublist.append (List.Sublist.refl _) (List.sublist_append_right _ _)).subperm
        · exact hfail
      · exact hfail
      · exact hfail

theorem State.startPark_follows (s : State) (o : Lanes Motion) : s.Follows (s.startPark o) :=
  (State.Follows.of_stores).trans (State.enter_follows _ _)

theorem State.startStop_follows (s : State) (o : Lanes Motion) : s.Follows (s.startStop o) :=
  (State.Follows.of_stores).trans (State.enter_follows _ _)

theorem State.endRule_follows (s : State) (o : Lanes Motion) : s.Follows (s.endRule o) := by
  have h0 : s.Follows { s with seq.sup.graceCount := none } := .of_stores
  unfold State.endRule
  dsimp only
  split
  · exact (h0.trans (State.abandonShelf_follows _ _)).trans (State.startPark_follows _ _)
  · have h1 := h0.trans (restoreShelf_follows o s.seq.shelf.length _)
    split
    · exact h1
    · have h2 := h1.trans (activationTest_follows true o
        (restoreShelf o s.seq.shelf.length { s with seq.sup.graceCount := none }).seq.queue.length _)
      split
      · exact h2
      · exact h2.trans (State.startStop_follows _ _)

theorem State.endActiveFrom_follows (s : State) (o : Lanes Motion) (v : Verdict) (why : Reason) :
    s.Follows (s.endActiveFrom o v why) :=
  (State.departActive_follows s v why none).trans (State.endRule_follows _ _)

theorem State.endActive_follows (s : State) (v : Verdict) (why : Reason) :
    s.Follows (s.endActive v why) :=
  State.endActiveFrom_follows s s.present v why

theorem State.haltRun_follows (s : State) (why : Reason) : s.Follows (s.haltRun why) :=
  (((State.departActive_follows s _ _ _).trans (State.abandonShelf_follows _ _)).trans
    .of_stores).trans (State.startStop_follows _ _)

/-! ## Conditions and alarms (R148, R155) -/

theorem State.flagCondition_follows (s : State) (c : Condition) (q : Byte) (n : Nat) :
    s.Follows (s.flagCondition c q n) := by
  have hk := State.mapContext_follows s (fun ctx => { ctx with flags := mark ctx.flags c })
  unfold State.flagCondition
  split
  · exact .refl s
  · dsimp only
    split
    · exact hk
    · exact hk.trans (State.report_follows _ _ _)

theorem State.raiseCondition_follows (s : State) (c : Condition) (q : Byte) (n : Nat) :
    s.Follows (s.raiseCondition c q n) := by
  unfold State.raiseCondition
  dsimp only
  split
  · exact State.flagCondition_follows s c q n
  · exact (State.flagCondition_follows s c q n).trans (State.endActive_follows _ _ _)

theorem State.alarmPorts_follows (s : State) : s.Follows s.alarmPorts :=
  State.ports_follow s _ (fun _ h => { h with })

theorem State.enterAlarm_follows (s : State) (k : AlarmKind) (axis : Option Lane) :
    s.Follows (s.enterAlarm k axis) :=
  ((((State.departActive_follows s _ _ _).trans (State.abandonShelf_follows _ _)).trans
    .of_stores).trans (State.enter_follows _ _)).trans (State.alarmPorts_follows _)

/-- A cause set replaced by one that fits. -/
theorem State.causeSet_follows (s : State) (first : Option FirstCause)
    (set : List (AlarmKind × Option Lane))
    (h : s.cond.Fits → ({ s.cond with first, causeSet := set } : ConditionUnit).Fits) :
    s.Follows { s with cond := { s.cond with first, causeSet := set } } where
  fits k := { k with cond := h k.cond }
  clock := id
  responses := le_rfl
  ids := .refl _
  chains c hc := ⟨c, hc, rfl, le_rfl⟩

/-- An alarm of a kind and axis that can be raised together (R154). -/
theorem State.raiseAlarm_follows (s : State) {k : AlarmKind} {axis : Option Lane}
    (hp : alarmPair k axis) : s.Follows (s.raiseAlarm k axis) := by
  unfold State.raiseAlarm
  split
  · split
    · exact .refl s
    · rename_i hn
      refine State.Follows.trans (State.causeSet_follows s s.cond.first _ (fun h => ⟨?_, ?_⟩))
        (State.report_follows _ _ _)
      · simpa [List.nodup_append] using
          ⟨h.distinct, fun a b hab => by rintro ha rfl; exact hn (ha ▸ hab)⟩
      · intro p hmem
        rcases List.mem_append.mp hmem with hmem | hmem
        · exact h.pairs p hmem
        · obtain rfl := List.mem_singleton.mp hmem
          exact hp
  · refine ((State.causeSet_follows s _ _ (fun _ => ⟨List.nodup_singleton _, ?_⟩)).trans
      (State.report_follows _ _ _)).trans (State.enterAlarm_follows _ _ _)
    simpa using hp

/-! ## Degrade causes and the ports at rest (R58, R60, R128 to R131) -/

theorem State.addCause_follows (s : State) (c : DegradeCause) (x : Lane) :
    s.Follows (s.addCause c x) := by
  unfold State.addCause
  dsimp only
  split
  · exact (State.Follows.of_stores).trans (State.enter_follows _ _)
  · exact .of_stores

theorem State.lowerCause_follows (s : State) (c : DegradeCause) (l : Lanes Bool) :
    s.Follows (s.lowerCause c l) := by
  unfold State.lowerCause
  dsimp only
  split
  · exact (State.Follows.of_stores).trans (State.enter_follows _ _)
  · exact .of_stores

theorem State.removeCause_follows (s : State) (c : DegradeCause) (x : Lane) :
    s.Follows (s.removeCause c x) := by
  unfold State.removeCause
  split
  · exact State.lowerCause_follows s _ _
  · exact .refl s

theorem State.releaseAll_follows (s : State) : s.Follows s.releaseAll :=
  State.ports_follow s _ (fun _ h => { h with })

theorem State.brakeAll_follows (s : State) : s.Follows s.brakeAll :=
  State.ports_follow s _ (fun _ h => { h with })

theorem State.enterParked_follows (s : State) : s.Follows s.enterParked :=
  (s.brakeAll_follows.trans .of_stores).trans (State.enter_follows _ _)

/-! ## Mount time (R158 to R166) -/

/-- The Time Base changed on the way from some state, where its two numbers lie within their range if they did
so there. -/
theorem State.Follows.withTime {r s : State} (k : r.Follows s) (b : TimeBase)
    (h : r.clockFits → b.mount ≤ Config.mountTimeMax ∧ ∀ v ∈ b.load, v ≤ Config.mountTimeMax) :
    r.Follows { s with time := b } where
  fits f := { k.fits f with }
  clock := h
  responses := k.responses
  ids := k.ids
  chains := k.chains

/-- Mount time set within its range. -/
theorem State.Follows.withMount {r s : State} (k : r.Follows s) {value : Nat}
    (h : r.clockFits → value ≤ Config.mountTimeMax) : r.Follows { s with time.mount := value } :=
  k.withTime _ (fun c => ⟨h c, (k.clock c).2⟩)

theorem countDwell_keeps (d : Nat) : Running.keeps (countDwell d) :=
  fun _ => by and_intros <;> rfl

/-- What passes with mount time: the clock, the active target's counts, the grace count, and a start handed
over (R61, R138, R142, R164, R166). -/
theorem State.passTime_eq (s : State) (d : Nat) :
    ∃ f, Running.keeps f ∧ s.passTime d = { s with
      time.mount := s.time.mount + d
      seq := { s.seq with
        active := s.seq.active.map f
        startHanded := s.seq.startHanded || s.startCrossed (s.time.mount + d)
        sup := { s.seq.sup with graceCount := s.seq.sup.graceCount.map (· + d) } } } := by
  let up : Running → Running := fun a => { a with ctx.guide := { a.ctx.guide with
    watch := a.ctx.guide.watch.map (·.plus d), lost := a.ctx.guide.lost.map (·.plus d) } }
  have hd := countDwell_keeps d
  have hg : Running.keeps up := fun _ => by and_intros <;> rfl
  unfold State.passTime
  by_cases hc : s.dwellCounts = true <;> by_cases hr : s.guideRuns = true <;>
    simp only [hc, hr, if_true, Bool.false_eq_true, if_false]
  · refine ⟨up ∘ countDwell d, Running.keeps_comp hg hd, ?_⟩
    rw [← Option.map_map]
    rfl
  · exact ⟨countDwell d, hd, rfl⟩
  · exact ⟨up, hg, rfl⟩
  · exact ⟨fun a => a, Running.keeps_id, by rw [Option.map_id']⟩

theorem State.Follows.passTime {r s : State} (k : r.Follows s) (d : Nat)
    (h : r.clockFits → s.time.mount + d ≤ Config.mountTimeMax) : r.Follows (s.passTime d) := by
  obtain ⟨f, hf, he⟩ := State.passTime_eq s d
  rw [he]
  exact (k.withMount h).trans ((State.mapActive_follows _ hf).trans .of_stores)

theorem State.handExpiries_follows (s : State) : s.Follows s.handExpiries := by
  rw [State.handExpiries_eq]
  exact .of_stores

theorem State.Follows.setClock {r s : State} (k : r.Follows s) {value : Nat}
    (h : r.clockFits → value ≤ Config.mountTimeMax) : r.Follows (s.setClock value) := by
  have hmove : r.Follows
      (if s.time.mount ≤ value then s.passTime (value - s.time.mount) else s.turnBack value) := by
    split
    · rename_i hle
      exact k.passTime _ (by rwa [Nat.add_sub_cancel' hle])
    · exact (k.withMount h).trans .of_stores
  refine State.Follows.trans ?_ (State.handExpiries_follows _)
  exact hmove.withTime _ hmove.clock

/-! ## Guiding (chapter 7) -/

theorem State.startGuide_follows (s : State) (left : GuideState) : s.Follows (s.startGuide left) := by
  unfold State.startGuide
  dsimp only
  split
  · exact (State.mapGuide_follows s _).trans (State.startAcquiring_follows _ _)
  · exact State.mapGuide_follows s _

theorem State.stopGuide_follows (s : State) (left : GuideState) (clear : Bool) :
    s.Follows (s.stopGuide left clear) := by
  unfold State.stopGuide
  dsimp only
  split
  · exact State.mapGuide_follows s _
  · exact (State.mapGuide_follows s _).trans (State.reportGuide_follows _ _ _)

theorem State.lockGuide_follows (s : State) (left : GuideState) : s.Follows (s.lockGuide left) := by
  have h := fun f => (State.mapGuide_follows s f).trans (State.usedGuideFree_follows _)
  unfold State.lockGuide
  dsimp only
  split
  · exact h _
  · exact (h _).trans (State.reportGuide_follows _ _ _)

theorem State.goodGuide_follows (s : State) (c : GuideContext) (g : GuideConfig) (f : GuideFields) :
    s.Follows (s.goodGuide c g f) := by
  have hsteps := fun (t : State) a e =>
    (State.mapGuide_follows t _ : t.Follows (t.addSteps g a e)).trans
      (State.lockGuide_follows _ c.state)
  unfold State.goodGuide
  dsimp only
  split
  · exact hsteps s _ _
  · have hf := State.flagCondition_follows s .guideReject (laneSetByte (rejectingLanes c g
      ((g.azGain : Int) * f.azCorr) ((g.elGain : Int) * f.elCorr))) 0
    split
    · exact hf.trans (hsteps _ _ _)
    · refine hf.trans (State.Follows.trans ?_ (State.endActive_follows _ _ _))
      split
      · exact .refl _
      · exact State.loseGuide_follows _ _ _

theorem State.takeGuide_follows (s : State) (src : Byte) (payload : List Byte) :
    s.Follows (s.takeGuide src payload) := by
  unfold State.takeGuide
  split
  · split
    · exact .refl s
    · dsimp only
      split
      · exact (State.mapGuide_follows s _).trans (State.goodGuide_follows _ _ _ _)
      · exact State.mapGuide_follows s _
  · exact .refl s

theorem State.expireGuideWatch_follows (s : State) : s.Follows s.expireGuideWatch := by
  unfold State.expireGuideWatch
  split
  · exact .refl s
  · exact State.loseGuide_follows s _ _

/-! ## A sample (R118) -/

theorem State.recordSample_follows (s : State) (x : Lane) (f : SampleFields) :
    s.Follows (s.recordSample x f) := .of_stores

theorem State.checkDrive_follows (s : State) (x : Lane) (f : SampleFields) :
    s.Follows (s.checkDrive x f) := by
  have h : s.Follows (if f.fault then s.raiseAlarm .driveFault (some x) else s) := by
    split
    · exact State.raiseAlarm_follows s (by simp [alarmPair])
    · exact .refl s
  unfold State.checkDrive
  dsimp only
  split
  · exact h.trans (State.raiseAlarm_follows _ (by simp [alarmPair]))
  · exact h

theorem State.evaluateSample_follows (s : State) : s.Follows s.evaluateSample.1 := by
  unfold State.evaluateSample
  split
  · exact .refl s
  · split
    · exact .refl s
    · exact State.endActive_follows s _ _

theorem State.evaluateChain_follows (s : State) (x : Lane) (c : Chain) (t : Nat) :
    s.Follows (s.evaluateChain x c t).1 := by
  have hr := State.raiseCondition_follows s .underrun (axisByte (some x)) 0
  unfold State.evaluateChain State.occur
  split
  · dsimp only
    split
    · exact hr
    · exact (hr.trans (State.addCause_follows _ _ _)).trans .of_stores
  · dsimp only
    split
    · exact State.Follows.trans (t := s.holdLane x none) .of_stores (State.removeCause_follows _ _ _)
    · exact .of_stores

theorem State.refillTest_follows (s : State) (id : Nat) (x : Lane) : s.Follows (s.refillTest id x) := by
  unfold State.refillTest
  split
  · exact .refl s
  · split
    · refine State.Follows.trans ?_ (State.report_follows _ _ _)
      exact State.mapChain_follows s id x (fun c => ⟨rfl, le_rfl⟩)
    · exact .refl s

theorem State.evaluateLane_follows (s : State) (x : Lane) (t : Nat) :
    s.Follows (s.evaluateLane x t).1 := by
  unfold State.evaluateLane
  split
  · exact .refl s
  · rename_i a _
    dsimp only
    split
    · exact .refl s
    · rename_i c _
      have h0 := State.mapChain_follows s a.record.targetId x (fun c => c.retire_follows t)
      split
      · have h1 := h0.trans (State.evaluateChain_follows _ x (c.retire t) t)
        split
        · exact h1
        · exact h1.trans (State.refillTest_follows _ _ _)
      · exact h0.trans (State.refillTest_follows _ _ _)

theorem State.runningSteps_follows (s : State) (x : Lane) (t : Nat) :
    s.Follows (s.runningSteps x t).1 := by
  unfold State.runningSteps
  split
  · dsimp only
    split
    · exact s.evaluateSample_follows
    · exact (s.evaluateSample_follows.trans
        (State.mapContext_follows _ _)).trans
        (State.evaluateLane_follows _ _ _)
  · exact .refl s

theorem State.convertStep_follows (s : State) (x : Lane) (t : Nat) (m : Motion) :
    s.Follows (s.convertStep x t m).1 := by
  have hr := State.raiseCondition_follows s .range (axisByte (some x)) 0
  unfold State.convertStep State.occur State.commandAfterFault
  split
  · exact .refl s
  · split
    · exact State.removeCause_follows s _ _
    · dsimp only
      split
      · exact hr
      · exact hr.trans (State.addCause_follows _ _ _)

theorem State.occurLimit_follows (s : State) (x : Lane) : s.Follows (s.occurLimit x).1 := by
  have hf := State.flagCondition_follows s .limitApproach (axisByte (some x)) 0
  unfold State.occurLimit
  dsimp only
  split
  · exact hf
  · exact hf.trans (State.endActiveFrom_follows _ _ _ _)

theorem State.softStep_follows (s : State) (x : Lane) (t : Nat) (m : Motion) :
    s.Follows (s.softStep x t m).1 := by
  unfold State.softStep
  split
  · exact State.convertStep_follows s _ _ _
  · split
    · dsimp only
      split
      · exact State.occurLimit_follows s x
      · exact ((State.occurLimit_follows s x).trans (State.addCause_follows _ _ _)).trans
          (State.convertStep_follows _ _ _ _)
    · exact (State.removeCause_follows s _ _).trans (State.convertStep_follows _ _ _ _)

theorem State.commandStep_follows (s : State) (x : Lane) (t : Nat) (faulted : Bool) :
    s.Follows (s.commandStep x t faulted).1 := by
  unfold State.commandStep
  split
  · exact .refl s
  · split
    · exact .refl s
    · exact State.softStep_follows s _ _ _

theorem State.placeSetpoint_follows (s : State) (x : Lane) (tag : Byte) (p : Option Setpoint) :
    s.Follows (s.placeSetpoint x tag p) := by
  cases p with
  | none => exact .refl s
  | some sp =>
    unfold State.placeSetpoint
    refine State.mapPort_follows s x _ (fun h => ?_)
    exact { h with }

theorem State.driveSteps_follows (s : State) (x : Lane) (tag : Byte) :
    s.Follows (s.driveSteps x tag).1 :=
  ((State.runningSteps_follows s x _).trans (State.commandStep_follows _ _ _ _)).trans
    (State.placeSetpoint_follows _ _ _ _)

theorem State.settleTest_follows (s : State) (x : Lane) (err : Int) (braked : Bool) :
    s.Follows (s.settleTest x err braked) := by
  unfold State.settleTest
  split
  · exact .refl s
  · split
    · exact .of_stores
    · dsimp only
      split
      · exact (State.Follows.of_stores).trans (State.enter_follows _ _)
      · exact .of_stores

theorem State.trackTest_follows (s : State) (x : Lane) (err : Int) : s.Follows (s.trackTest x err) := by
  have hr := State.raiseCondition_follows s .trackError (axisByte (some x)) 0
  unfold State.trackTest State.occur
  split
  · dsimp only
    split
    · exact hr
    · exact (hr.trans (State.addCause_follows _ .trackError x)).trans .of_stores
  · exact .refl s

theorem State.recoverTest_follows (s : State) (x : Lane) (err : Int) (braked : Bool) :
    s.Follows (s.recoverTest x err braked) := by
  unfold State.recoverTest
  split
  · exact .refl s
  · dsimp only
    split
    · split
      · exact (State.Follows.of_stores).trans (State.addCause_follows _ _ _)
      · exact .of_stores
    · split
      · exact (State.Follows.of_stores).trans (State.lowerCause_follows _ _ _)
      · exact .of_stores

theorem State.parkTest_follows (s : State) : s.Follows s.parkTest := by
  unfold State.parkTest
  split
  · split
    · exact s.enterParked_follows
    · exact .refl s
  all_goals exact .refl s

theorem State.errorTests_follows (s : State) (x : Lane) (err : Int) (braked : Bool) :
    s.Follows (s.errorTests x err braked) := by
  have hm : s.Follows (s.raiseMaxError x err) := State.mapStats_follows s _
  unfold State.errorTests
  split
  · exact hm.trans (State.settleTest_follows _ _ _ _)
  · exact hm.trans (State.trackTest_follows _ _ _)
  · dsimp only
    split
    · exact hm.trans (State.recoverTest_follows _ _ _ _)
    · exact hm
  · exact s.parkTest_follows
  all_goals exact .refl s

theorem State.errorStep_follows (s : State) (x : Lane) (f : SampleFields) (hold : Bool) :
    s.Follows (s.errorStep x f hold) := by
  unfold State.errorStep
  split
  · exact .refl s
  · dsimp only
    split
    · exact .of_stores
    · exact (State.Follows.of_stores).trans (State.errorTests_follows _ _ _ _)

theorem pushTelemetry_length {l : List TelemetryEntry} (e : TelemetryEntry)
    (h : l.length ≤ Config.telemetrySize) : (pushTelemetry l e).length ≤ Config.telemetrySize := by
  unfold pushTelemetry
  split <;> simp only [List.length_append, List.length_drop, List.length_singleton,
    Config.telemetrySize] at * <;> omega

/-- The Site Port changed, where the change keeps what fits and adds no response. -/
theorem State.site_follows (s : State) (p : SitePort) (hf : s.site.Fits → p.Fits)
    (hr : p.responses.length ≤ s.site.responses.length) : s.Follows { s with site := p } where
  fits h := { h with site := hf h.site }
  clock := id
  responses := hr
  ids := .refl _
  chains c hc := ⟨c, hc, rfl, le_rfl⟩

theorem State.copyTelemetry_follows (s : State) (x : Lane) : s.Follows (s.copyTelemetry x) := by
  unfold State.copyTelemetry
  split
  · exact State.site_follows s _ (fun h => { h with telemetry := pushTelemetry_length _ h.telemetry })
      le_rfl
  · exact .refl s

theorem State.telemetryStep_follows (s : State) (x : Lane) : s.Follows (s.telemetryStep x) := by
  unfold State.telemetryStep
  dsimp only
  split
  · exact .refl s
  · split
    · exact .of_stores
    · exact (State.Follows.of_stores).trans (State.copyTelemetry_follows _ _)

theorem State.takeSample_follows (s : State) (x : Lane) (tag : Byte) (f : SampleFields) :
    s.Follows (s.takeSample x tag f) :=
  ((((State.recordSample_follows s x f).trans (State.checkDrive_follows _ x f)).trans
    (State.driveSteps_follows _ _ _)).trans (State.errorStep_follows _ _ _ _)).trans
    (State.telemetryStep_follows _ _)

/-! ## The links (chapter 10) -/

theorem raiseCount_le {n : Nat} (h : n ≤ Config.linkErrorMax) : raiseCount n ≤ Config.linkErrorMax := by
  unfold raiseCount
  split <;> simp only [Config.linkErrorMax] at * <;> omega

theorem State.setReceiver_follows (s : State) (p : Port) {r : RxState}
    (h : (s.receiver p).bounded → r.bounded) : s.Follows (s.setReceiver p r) := by
  cases p with
  | site => exact State.site_follows s _ (fun k => { k with rx := h k.rx }) le_rfl
  | axis x =>
    unfold State.setReceiver
    refine State.mapPort_follows s x _ (fun k => ?_)
    exact { k with rx := h k.rx }

theorem State.countError_follows (s : State) (p : Port) : s.Follows (s.countError p) := by
  cases p with
  | site =>
    exact State.site_follows s _ (fun k => { k with linkErrors := raiseCount_le k.linkErrors }) le_rfl
  | axis x =>
    unfold State.countError
    refine State.mapPort_follows s x _ (fun k => ?_)
    exact { k with linkErrors := raiseCount_le k.linkErrors }

theorem State.bufferRequest_follows (s : State) (f : Frame) : s.Follows (s.bufferRequest f) := by
  unfold State.bufferRequest
  split
  · rename_i hl
    refine State.site_follows s _ (fun h => { h with requests := ?_ }) le_rfl
    simpa using hl
  · exact State.site_follows s _ (fun h => { h with }) le_rfl

theorem State.proxyFrame_follows (s : State) (x : Lane) (f : Frame) : s.Follows (s.proxyFrame x f) := by
  have hrefuse := fun why => (State.report_follows s _ _ : s.Follows (s.refuseForward false x f f.src why))
  unfold State.proxyFrame
  split
  · exact hrefuse _
  · split
    · exact .refl s
    · split
      · exact .refl s
      · split
        · exact .refl s
        · split
          · exact hrefuse _
          · split
            · exact hrefuse _
            · rename_i hl
              refine State.mapPort_follows s x _ (fun h => { h with service := ?_ })
              simpa using Nat.lt_of_not_le hl

theorem State.replyFrame_follows (s : State) (x : Lane) (f : Frame) : s.Follows (s.replyFrame x f) := by
  unfold State.replyFrame
  split
  · exact .refl s
  · split
    · exact State.report_follows s _ _
    · rename_i hn
      refine State.site_follows s _ (fun h => { h with returns := ?_ }) le_rfl
      have hx : x ∉ s.site.returns.map (·.axis) := by simpa using hn
      simpa [List.nodup_append, List.mem_map] using ⟨h.returns, by simpa using hx⟩

theorem State.sortSite_follows (s : State) (f : Frame) : s.Follows (s.sortSite f) := by
  unfold State.sortSite
  split
  · split
    · exact State.Follows.trans (t := s.hearRequest) .of_stores (State.bufferRequest_follows _ f)
    · split
      · exact State.takeGuide_follows s _ _
      · exact .refl s
  · split
    · exact State.proxyFrame_follows s _ f
    · exact .refl s

theorem State.sortAxis_follows (s : State) (x : Lane) (f : Frame) : s.Follows (s.sortAxis x f) := by
  unfold State.sortAxis
  split
  · split
    · split
      · exact State.takeSample_follows s x _ _
      · exact .refl s
    · split
      · exact State.replyFrame_follows s x f
      · exact .refl s
  · exact .refl s

theorem State.takeRx_follows (s : State) (p : Port) (e : RxEvent) : s.Follows (State.takeRx p s e) := by
  cases e with
  | received f =>
    cases p with
    | site => exact State.sortSite_follows s f
    | axis x => exact State.sortAxis_follows s x f
  | discarded e => exact State.countError_follows s p

theorem State.receiveLine_follows (s : State) (p : Port) (input : List LineInput) :
    s.Follows (s.receiveLine p input) := by
  have hfold : ∀ (es : List RxEvent) (t : State), t.Follows (es.foldl (State.takeRx p) t) := by
    intro es
    induction es with
    | nil => exact fun t => .refl t
    | cons e es ih => exact fun t => (State.takeRx_follows t p e).trans (ih _)
  exact (State.setReceiver_follows s p (rxRun_bounded input _)).trans (hfold _ _)

theorem AxisPort.start_fits {p : AxisPort} (h : p.Fits) : p.start.Fits := by
  unfold AxisPort.start
  split
  · exact { h with }
  · exact { h with }
  · rename_i hs
    have hl := h.service
    rw [hs] at hl
    exact { h with service := (Nat.le_succ _).trans hl }
  · exact h

theorem State.startSite_follows (s : State) : s.Follows s.startSite := by
  unfold State.startSite
  split
  · rename_i hr
    refine State.site_follows s _ (fun h => { h with responses := ?_ }) (by simp [hr])
    exact (by simp [hr] : _ ≤ s.site.responses.length).trans h.responses
  · rename_i rest _ hrep
    refine State.Follows.trans (t := { s with rep.queue := rest }) ?_
      (State.site_follows _ _ (fun h => { h with }) le_rfl)
    exact ⟨fun h => { h with rep := (by simp [hrep] : rest.length ≤ s.rep.queue.length).trans h.rep },
      id, le_rfl, .refl _, fun c hc => ⟨c, hc, rfl, le_rfl⟩⟩
  · rename_i hret
    refine State.site_follows s _ (fun h => { h with returns := ?_ }) le_rfl
    have := h.returns
    rw [hret] at this
    exact (List.nodup_cons.mp this).2
  · rename_i htel
    split
    · refine State.site_follows s _ (fun h => { h with telemetry := ?_ }) le_rfl
      exact (by simp [htel] : _ ≤ s.site.telemetry.length).trans h.telemetry
    · exact State.site_follows s _ (fun h => { h with telemetry := Nat.zero_le _ }) le_rfl
  · exact .refl s

/-! ## Mount time changed, and the soft reset (chapters 9 and 11) -/

theorem State.afterClock_follows (s : State) : s.Follows s.afterClock :=
  s.expireHanded_follows.trans (State.testActivation_follows _)

theorem State.pulseLoad_follows {r s : State} (k : r.Follows s) {value : Nat}
    (h : r.clockFits → value ≤ Config.mountTimeMax) : r.Follows (s.pulseLoad value) := by
  have h0 : r.Follows { s with time.load := none } :=
    k.withTime _ (fun c => ⟨(k.clock c).1, fun v hv => by cases hv⟩)
  unfold State.pulseLoad
  dsimp only
  split
  · exact h0.trans (State.report_follows _ _ _)
  · refine ((h0.setClock h).trans ?_).trans (State.afterClock_follows _)
    exact ⟨fun k => { k with rep := offerReport_length _ _ _ k.rep }, id, le_rfl, .refl _,
      fun c hc => ⟨c, hc, rfl, le_rfl⟩⟩

theorem State.softReset_follows (s : State) : s.Follows s.softReset where
  fits h :=
    { queue := Nat.zero_le _, shelf := Nat.zero_le _, outcomes := Nat.zero_le _
      queued := fun _ hr => by cases hr
      active := fun _ ha => by cases ha
      shelved := fun _ he => by cases he
      listed := fun _ he => by cases he
      rep := Nat.zero_le _, staged := h.staged, terms := h.terms, cond := h.cond
      site :=
        { requests := Nat.zero_le _, responses := Nat.zero_le _, telemetry := Nat.zero_le _
          forwarding := h.site.forwarding, linkErrors := h.site.linkErrors, rx := h.site.rx
          returns := List.nodup_nil }
      ports := fun x => by
        simp only [State.softReset, Lanes.get_map]
        exact { h.ports x with service := Nat.zero_le _ } }
  clock h := ⟨h.1, fun v hv => by cases hv⟩
  responses := Nat.zero_le _
  ids := List.nil_subperm
  chains c hc := by cases hc

theorem State.clearStatus_follows (s : State) : s.Follows s.clearStatus where
  fits h := { h with
    site := { h.site with linkErrors := Nat.zero_le _ }
    ports := fun x => by
      simp only [State.clearStatus, Lanes.get_map]
      exact { h.ports x with linkErrors := Nat.zero_le _ } }
  clock := id
  responses := le_rfl
  ids := .refl _
  chains c hc := ⟨c, hc, rfl, le_rfl⟩

/-! ## The bodies of the requests -/

section Bodies
variable (p : List Byte) (s : State)

/-- A body that reads answers and leaves the state as it is (R22 to R24, R37, R101, R109, R152, R162). -/
theorem readTargetBody_state : (readTargetBody p s).1 = s := by
  unfold readTargetBody State.readTarget
  split
  · rfl
  · split <;> rfl

theorem readOutcomeBody_state : (readOutcomeBody p s).1 = s := by
  unfold readOutcomeBody
  split
  · rfl
  · split <;> rfl

theorem readCapturesBody_state : (readCapturesBody p s).1 = s := by
  unfold readCapturesBody
  split
  · rfl
  · dsimp only
    split <;> rfl

theorem readChainBody_state : (readChainBody p s).1 = s := by
  unfold readChainBody
  split
  · rfl
  · split
    · rfl
    · split <;> rfl

theorem readTermsBody_state : (readTermsBody p s).1 = s := by
  unfold readTermsBody
  split <;> rfl

theorem readOffsetsBody_state : (readOffsetsBody p s).1 = s := by
  unfold readOffsetsBody
  split
  · rfl
  · split <;> rfl

theorem readConditionsBody_state : (readConditionsBody p s).1 = s := by
  unfold readConditionsBody
  split <;> rfl

theorem peekTimeBody_state : (peekTimeBody p s).1 = s := by
  unfold peekTimeBody
  split <;> rfl

theorem withdrawTargetBody_follows : s.Follows (withdrawTargetBody p s).1 := by
  unfold withdrawTargetBody State.withdraw
  split
  · exact .refl s
  · split
    · exact State.endActive_follows s _ _
    · rename_i e _ he
      exact State.departShelved_follows s (List.mem_of_find?_eq_some he) _ _
    · rename_i r _ _ hr
      exact (State.departQueued_follows s (List.mem_of_find?_eq_some hr) _ _).trans
        (State.retestIfHeadChanged_follows _ _)
    · exact .refl s

theorem flushQueueBody_follows : s.Follows (flushQueueBody p s).1 := by
  unfold flushQueueBody
  split
  · exact .refl s
  · exact State.departAllQueued_follows s _ _ _ (fun _ h => h)

theorem runQueueBody_follows : s.Follows (runQueueBody p s).1 := by
  unfold runQueueBody
  split
  · exact .refl s
  · split
    · exact .refl s
    · exact (State.Follows.of_stores).trans (State.testActivation_follows _)

theorem holdQueueBody_follows : s.Follows (holdQueueBody p s).1 := by
  unfold holdQueueBody
  split
  · exact .refl s
  · exact .of_stores

/-- A change of the queue's records that keeps their number, target_ids and capture lists. -/
theorem State.mapQueue_follows (f : TargetRecord → TargetRecord)
    (hid : ∀ r, (f r).targetId = r.targetId) (hcap : ∀ r, (f r).captures = r.captures) :
    s.Follows { s with seq.queue := s.seq.queue.map f } where
  fits h := { h with
    queue := by simpa using h.queue
    queued := by
      intro r hr
      obtain ⟨q, hq, rfl⟩ := List.mem_map.mp hr
      unfold TargetRecord.capturesFit
      rw [hcap]
      exact h.queued q hq }
  clock := id
  responses := le_rfl
  ids := by simp [State.ids_eq, Function.comp_def, hid, List.Subperm.refl]
  chains c hc := ⟨c, hc, rfl, le_rfl⟩

/-- A change of the shelf's entries that keeps their records. -/
theorem State.mapShelf_follows (f : Running → Running) (hf : ∀ e, (f e).record = e.record) :
    s.Follows { s with seq.shelf := s.seq.shelf.map f } where
  fits h := { h with
    shelf := by simpa using h.shelf
    shelved := by
      intro r hr
      obtain ⟨q, hq, rfl⟩ := List.mem_map.mp hr
      rw [hf]
      exact h.shelved q hq }
  clock := id
  responses := le_rfl
  ids := by simp [State.ids_eq, Function.comp_def, hf, List.Subperm.refl]
  chains c hc := ⟨c, hc, rfl, le_rfl⟩

theorem State.setQueuedDwell_follows (id value : Nat) : s.Follows (s.setQueuedDwell id value) :=
  State.mapQueue_follows s _ (fun r => by split <;> rfl) (fun r => by split <;> rfl)

theorem State.setShelvedDwell_follows (id value : Nat) : s.Follows (s.setShelvedDwell id value) :=
  State.mapShelf_follows s _ (fun e => by split <;> rfl)

theorem adjustDwellBody_follows : s.Follows (adjustDwellBody p s).1 := by
  unfold adjustDwellBody State.adjustDwell
  split
  · exact .refl s
  · split
    · simp only [accept]
      split
      · exact State.endActive_follows s _ _
      · exact State.mapContext_follows s _
    · rename_i e _ he
      simp only [accept]
      split
      · exact State.departShelved_follows s (List.mem_of_find?_eq_some he) _ _
      · exact State.setShelvedDwell_follows s _ _
    · split
      · exact .refl s
      · exact State.setQueuedDwell_follows s _ _
    · exact .refl s

theorem closeChainBody_follows : s.Follows (closeChainBody p s).1 := by
  unfold closeChainBody State.closeChain
  split
  · exact .refl s
  · split
    · exact .refl s
    · split
      · exact .refl s
      · split
        · exact .refl s
        · exact State.mapChain_follows s _ _ (fun c => ⟨rfl, le_rfl⟩)

theorem truncateChainBody_follows : s.Follows (truncateChainBody p s).1 := by
  unfold truncateChainBody State.truncateChain
  split
  · exact .refl s
  · split
    · exact .refl s
    · split
      · exact .refl s
      · split
        · exact State.mapChain_follows s _ _ (fun c => ⟨c.truncate_key _, c.truncate_count _⟩)
        · exact .refl s

theorem State.leaveRest_follows : s.Follows s.leaveRest :=
  (s.releaseAll_follows.trans .of_stores).trans (State.enterIdle_follows _ _)

theorem unparkBody_follows : s.Follows (unparkBody p s).1 := by
  unfold unparkBody
  split
  · exact .refl s
  · split
    · exact .refl s
    · split
      · exact .refl s
      · exact s.leaveRest_follows

theorem State.parkNow_follows : s.Follows s.parkNow := by
  unfold State.parkNow
  split
  · exact (State.haltRun_follows s _).trans .of_stores
  · exact (State.haltRun_follows s _).trans .of_stores
  · exact (State.haltRun_follows s _).trans .of_stores
  · exact (State.haltRun_follows s _).trans .of_stores
  · exact State.startPark_follows s _
  · exact .of_stores
  all_goals exact .refl s

theorem parkBody_follows : s.Follows (parkBody p s).1 := by
  unfold parkBody
  split
  · exact .refl s
  · split
    · exact .refl s
    · exact s.parkNow_follows

theorem State.stopNow_follows : s.Follows s.stopNow := by
  unfold State.stopNow
  split
  · exact State.haltRun_follows s _
  · exact State.haltRun_follows s _
  · exact State.haltRun_follows s _
  · exact State.haltRun_follows s _
  · exact (State.Follows.of_stores).trans (State.startStop_follows _ _)
  all_goals exact .refl s

theorem stopBody_follows : s.Follows (stopBody p s).1 := by
  unfold stopBody
  split
  · exact .refl s
  · split
    · exact .refl s
    · exact s.stopNow_follows

theorem clearAlarmBody_follows : s.Follows (clearAlarmBody p s).1 := by
  unfold clearAlarmBody
  split
  · exact .refl s
  · split
    · exact .refl s
    · split
      · exact .refl s
      · exact (State.causeSet_follows s none []
          (fun _ => ⟨List.nodup_nil, fun _ h => by cases h⟩)).trans (State.leaveRest_follows _)

/-- The staged table replaced by one that fits (R98). -/
theorem State.staged_follows (ts : List Term)
    (h : s.corr.staged.length ≤ Config.termSize → ts.length ≤ Config.termSize) :
    s.Follows { s with corr.staged := ts } where
  fits k := { k with staged := h k.staged }
  clock := id
  responses := le_rfl
  ids := .refl _
  chains c hc := ⟨c, hc, rfl, le_rfl⟩

theorem writeTermBody_follows : s.Follows (writeTermBody p s).1 := by
  unfold writeTermBody
  dsimp only
  split
  · exact .refl s
  · split
    · exact .refl s
    · split
      · exact .refl s
      · rename_i hl
        refine State.staged_follows s _ (fun _ => ?_)
        simpa using Nat.lt_of_not_le hl

theorem deleteTermBody_follows : s.Follows (deleteTermBody p s).1 := by
  unfold deleteTermBody
  dsimp only
  split
  · exact .refl s
  · split
    · exact .refl s
    · exact State.staged_follows s _ (fun h => (List.length_filter_le _ _).trans h)

theorem commitTermsBody_follows : s.Follows (commitTermsBody p s).1 := by
  unfold commitTermsBody
  split
  · exact .refl s
  · split
    · exact ⟨fun h => { h with }, id, le_rfl, .refl _, fun c hc => ⟨c, hc, rfl, le_rfl⟩⟩
    · exact s.commit_follows.trans (State.report_follows _ _ _)

theorem State.offsetChanged_follows : s.Follows s.offsetChanged := by
  unfold State.offsetChanged
  split
  · exact State.enter_follows s _
  · exact .of_stores
  all_goals exact .refl s

theorem State.setStack_follows (old new : OffsetStack) : s.Follows (s.setStack old new) := by
  unfold State.setStack
  dsimp only
  split
  · exact State.mapContext_follows s _
  · exact (State.mapContext_follows s _).trans (State.offsetChanged_follows _)

theorem State.stackFault_follows (i : Indicator) : s.Follows (s.stackFault i).1 :=
  (State.mapContext_follows s _).trans (State.raiseCondition_follows _ _ _ _)

theorem pushOffsetBody_follows : s.Follows (pushOffsetBody p s).1 := by
  unfold pushOffsetBody
  split
  · exact .refl s
  · split
    · exact .refl s
    · dsimp only
      split
      · exact State.stackFault_follows s _
      · split
        · exact State.setStack_follows s _ _
        · exact .refl s

theorem popOffsetBody_follows : s.Follows (popOffsetBody p s).1 := by
  unfold popOffsetBody
  split
  · exact .refl s
  · split
    · exact .refl s
    · dsimp only
      split
      · exact State.stackFault_follows s _
      · exact State.setStack_follows s _ _

theorem replaceTopOffsetBody_follows : s.Follows (replaceTopOffsetBody p s).1 := by
  unfold replaceTopOffsetBody
  split
  · exact .refl s
  · split
    · exact .refl s
    · dsimp only
      split
      · exact State.stackFault_follows s _
      · split
        · exact State.setStack_follows s _ _
        · exact .refl s

theorem clearOffsetsBody_follows : s.Follows (clearOffsetsBody p s).1 := by
  unfold clearOffsetsBody
  split
  · exact .refl s
  · split
    · exact .refl s
    · exact State.setStack_follows s _ _

theorem configureGuideBody_follows : s.Follows (configureGuideBody p s).1 := by
  unfold configureGuideBody
  split
  · exact .refl s
  · exact .of_stores

theorem startGuidingBody_follows : s.Follows (startGuidingBody p s).1 := by
  unfold startGuidingBody
  split
  · exact .refl s
  · split
    · exact .refl s
    · split
      · exact .refl s
      · split
        · exact .refl s
        · exact State.startGuide_follows s _

theorem stopGuidingBody_follows : s.Follows (stopGuidingBody p s).1 := by
  unfold stopGuidingBody
  split
  · exact .refl s
  · split
    · exact .refl s
    · exact State.stopGuide_follows s _ _

theorem setMasksBody_follows : s.Follows (setMasksBody p s).1 := by
  unfold setMasksBody
  split
  · exact .refl s
  · exact ⟨fun h => { h with cond := { h.cond with } }, id, le_rfl, .refl _,
      fun c hc => ⟨c, hc, rfl, le_rfl⟩⟩

theorem clearConditionsBody_follows : s.Follows (clearConditionsBody p s).1 := by
  unfold clearConditionsBody
  split
  · exact .refl s
  · split
    · exact .refl s
    · exact State.mapContext_follows s (fun c => c.clearFlags _)

theorem loadAxesBody_follows : s.Follows (loadAxesBody p s).1 := by
  unfold loadAxesBody
  split
  · exact .refl s
  · split
    · exact .refl s
    · split
      · exact .refl s
      · split
        · exact .refl s
        · exact .of_stores

theorem loadLimitsBody_follows : s.Follows (loadLimitsBody p s).1 := by
  unfold loadLimitsBody
  dsimp only
  repeat' split
  all_goals first | exact .refl s | exact .of_stores

theorem lockLimitsBody_follows : s.Follows (lockLimitsBody p s).1 := by
  unfold lockLimitsBody
  split
  · exact .refl s
  · split
    · exact .refl s
    · exact .of_stores

/-- Reading a list entry by entry gives one value for each entry. -/
theorem mapM_option_length {α β : Type} {f : α → Option β} (l : List α) :
    ∀ t : List β, l.mapM f = some t → t.length = l.length := by
  induction l with
  | nil => intro t h; simp_all
  | cons a l ih =>
    intro t h
    simp only [List.mapM_cons, Option.bind_eq_bind, Option.bind_eq_some_iff, Option.pure_def,
      Option.some.injEq] at h
    obtain ⟨b, -, u, hu, rfl⟩ := h
    simp [ih u hu]

/-- A forwarding table has as many entries as its count field gives (R176). -/
theorem forwardingOf_length {table : List ForwardEntry} (h : forwardingOf p = some table) :
    table.length = natAt p 2 1 := by
  simpa using mapM_option_length _ _ h

theorem loadForwardingBody_follows : s.Follows (loadForwardingBody p s).1 := by
  unfold loadForwardingBody
  dsimp only
  split
  · exact .refl s
  · rename_i hl
    split
    · exact .refl s
    · rename_i table ht
      refine State.site_follows s _ (fun h => { h with forwarding := ?_ }) le_rfl
      simp only [forwardingOf_length p ht]
      omega

theorem setReportDestinationBody_follows : s.Follows (setReportDestinationBody p s).1 := by
  unfold setReportDestinationBody
  split
  · split
    · exact .refl s
    · exact ⟨fun h => { h with }, id, le_rfl, .refl _, fun c hc => ⟨c, hc, rfl, le_rfl⟩⟩
  · exact .refl s

theorem enableSupervisionBody_follows : s.Follows (enableSupervisionBody p s).1 := by
  unfold enableSupervisionBody
  split
  · exact .refl s
  · split
    · exact .refl s
    · split
      · exact .refl s
      · exact .of_stores

/-- An 8-byte field is an unsigned 64-bit number. -/
theorem natAt_eight_le (o : Nat) : natAt p o 8 ≤ Config.mountTimeMax :=
  Nat.le_of_lt_succ (natAt_lt p o 8)

theorem setTimeBody_follows : s.Follows (setTimeBody p s).1 := by
  unfold setTimeBody
  split
  · exact .refl s
  · dsimp only
    split
    · exact .refl s
    · have h := (State.Follows.refl s).setClock (fun _ => natAt_eight_le p 0)
      refine State.Follows.trans ?_ (State.afterClock_follows _)
      exact h.withTime _ (fun c => ⟨(h.clock c).1, fun v hv => by cases hv⟩)

theorem setTimeAtPulseBody_follows : s.Follows (setTimeAtPulseBody p s).1 := by
  unfold setTimeAtPulseBody
  split
  · exact .refl s
  · refine (State.Follows.refl s).withTime _ (fun c => ⟨c.1, fun v hv => ?_⟩)
    obtain rfl := Option.mem_some_iff.mp hv
    exact natAt_eight_le p 0

theorem readTimeBody_follows : s.Follows (readTimeBody p s).1 := by
  unfold readTimeBody
  split
  · exact .refl s
  · exact (State.Follows.refl s).withTime _ (fun c => c)

theorem readStatusBody_follows : s.Follows (readStatusBody p s).1 := by
  unfold readStatusBody
  split
  · exact .refl s
  · exact s.clearStatus_follows

theorem resetControllerBody_follows : s.Follows (resetControllerBody p s).1 := by
  unfold resetControllerBody
  split
  · exact .refl s
  · split
    · exact .refl s
    · exact s.softReset_follows

end Bodies

/-! ## Commands that take in no record and store no segment -/

/-- `t` follows from `s` by a command: what `State.Follows` says, but that a response may be added. -/
structure State.Leads (s t : State) : Prop where
  fits : s.Fits → t.Fits
  clock : s.clockFits → t.clockFits
  ids : t.ids.Subperm s.ids
  chains : ∀ c ∈ t.chains, ∃ d ∈ s.chains, d.key = c.key ∧ c.count ≤ d.count

theorem State.Follows.leads {s t : State} (h : s.Follows t) : s.Leads t :=
  ⟨h.fits, h.clock, h.ids, h.chains⟩

theorem State.Leads.trans {s t u : State} (h : s.Leads t) (k : t.Follows u) : s.Leads u where
  fits := k.fits ∘ h.fits
  clock := k.clock ∘ h.clock
  ids := k.ids.trans h.ids
  chains c hc := by
    obtain ⟨d, hd, hk, hn⟩ := k.chains c hc
    obtain ⟨e, he, hk', hn'⟩ := h.chains d hd
    exact ⟨e, he, hk'.trans hk, hn.trans hn'⟩

/-- A request leaves the buffer. -/
theorem State.requests_follow (s : State) {q : List Request}
    (h : q.length ≤ s.site.requests.length) : s.Follows { s with site.requests := q } :=
  State.site_follows s _ (fun k => { k with requests := h.trans k.requests }) le_rfl

/-- A response joins the response queue where it has room (R173). -/
theorem State.respond_fits {s : State} (r : Request) (reply : Reply) (h : s.Fits)
    (hl : s.site.responses.length < Config.responseSize) : (s.respond r reply).Fits :=
  { h with site := { h.site with responses := by simpa using hl } }

/-- A request command leads where its body does. -/
theorem takeRequest_leads {cmd : Instr} {body : List Byte → State → State × Reply} {s : State}
    (hbody : ∀ (p : List Byte) (t : State), t.Follows (body p t).1) : s.Leads (takeRequest cmd body s) :=
  takeRequest_keeps (P := s.Leads) (fun _ _ k hl => k.trans (State.requests_follow _ hl))
    (fun _ r reply k hl => ⟨fun h => State.respond_fits r reply (k.fits h) hl, k.clock, k.ids, k.chains⟩)
    (fun p t k => ⟨k.trans (hbody p t), (hbody p t).responses⟩) (State.Follows.refl s).leads

/-- A reading request leads to a state with the same stores. -/
theorem takeRequest_reads_leads {cmd : Instr} {body : List Byte → State → State × Reply} {s : State}
    (hbody : ∀ (p : List Byte) (t : State), (body p t).1 = t) : s.Leads (takeRequest cmd body s) :=
  takeRequest_leads (fun p t => by rw [hbody]; exact .refl t)

/-! ## The events of time and of the discrete inputs -/

theorem State.dwellCompletion_follows (s : State) :
    s.Follows (if s.dwellDue then s.endActive .completed .none else s) := by
  split
  · exact State.endActive_follows s _ _
  · exact .refl s

theorem State.slewCompletion_follows (s : State) :
    s.Follows (if s.slewDue then State.enter { s with planner.current := .none } .settling else s) := by
  split
  · exact (State.Follows.of_stores).trans (State.enter_follows _ _)
  · exact .refl s

theorem State.completeStop_follows (s : State) (p : StopPlan) : s.Follows (s.completeStop p) := by
  unfold State.completeStop
  split
  · exact State.startPark_follows s _
  · exact State.enterIdle_follows s _

theorem State.takeStart_follows (s : State) : s.Follows s.takeStart := by
  unfold State.takeStart
  split
  · exact (State.Follows.of_stores).trans (State.testActivation_follows _)
  · exact .refl s

theorem State.lapse_follows (s : State) : s.Follows s.lapse := by
  have heffect : ∀ t : State, t.Follows t.lapseEffect := by
    intro t
    unfold State.lapseEffect
    split
    case h_5 => exact State.startPark_follows t _
    case h_6 => exact .of_stores
    case h_7 | h_8 | h_9 => exact .refl t
    all_goals
      dsimp only
      split
      · exact (State.Follows.of_stores).trans (State.endActive_follows _ _ _)
      · exact .of_stores
  exact (State.Follows.trans (State.report_follows s _ _) .of_stores).trans (heffect _)

theorem TargetRecord.addCapture_fits {r : TargetRecord} (c : Capture) (h : r.capturesFit) :
    (r.addCapture c).capturesFit := by
  unfold TargetRecord.addCapture
  split
  · rename_i hl
    simpa [TargetRecord.capturesFit] using hl
  · exact h

theorem TargetRecord.addCapture_id (r : TargetRecord) (c : Capture) :
    (r.addCapture c).targetId = r.targetId := by
  unfold TargetRecord.addCapture
  split <;> rfl

theorem State.captureEdge_follows (s : State) (e : ShutterEdge) : s.Follows (s.captureEdge e) :=
  State.mapActive_follows_of s (fun a => a.record.addCapture_id _)
    (fun _ h => TargetRecord.addCapture_fits _ h)

/-- Every store of the reset state is empty. -/
theorem State.reset_fits : State.reset.Fits where
  queue := Nat.zero_le _
  shelf := Nat.zero_le _
  outcomes := Nat.zero_le _
  queued _ hr := by cases hr
  active _ ha := by cases ha
  shelved _ he := by cases he
  listed _ he := by cases he
  rep := Nat.zero_le _
  staged := Nat.zero_le _
  terms := Nat.zero_le _
  cond := ⟨List.nodup_nil, fun _ h => by cases h⟩
  site :=
    { requests := Nat.zero_le _, responses := Nat.zero_le _, telemetry := Nat.zero_le _
      forwarding := Nat.zero_le _, linkErrors := Nat.zero_le _, rx := RxState.bounded_hunt
      returns := List.nodup_nil }
  ports x := by
    have hx : State.reset.ports.get x = .reset := Lanes.get_const _ x
    rw [hx]
    exact ⟨RxState.bounded_hunt, Nat.zero_le _, Nat.zero_le _⟩

theorem State.pinReset_follows (s : State) (straps : BitVec 3) (permit : Bool) :
    s.Follows (s.pinReset straps permit) where
  fits _ := { State.reset_fits with site := { State.reset_fits.site with } }
  clock _ := ⟨Nat.zero_le _, fun v hv => by cases hv⟩
  responses := Nat.zero_le _
  ids := List.nil_subperm
  chains c hc := by cases hc

/-- A byte time of idle line keeps what a port can hold (R169). -/
theorem tickErrors_le (r : RxState) {n : Nat} (h : n ≤ Config.linkErrorMax) :
    tickErrors r n ≤ Config.linkErrorMax := by
  unfold tickErrors
  split
  · exact raiseCount_le h
  · exact h

theorem State.tick_follows (s : State) : s.Follows s.tick := by
  have htime : s.Follows
      (if s.time.mount < Config.mountTimeMax then (s.passTime 1).handExpiries else s) ∧
      (if s.time.mount < Config.mountTimeMax then (s.passTime 1).handExpiries else s).site = s.site ∧
      (if s.time.mount < Config.mountTimeMax then (s.passTime 1).handExpiries else s).ports =
        s.ports := by
    split
    · rename_i hm
      obtain ⟨f, -, he⟩ := State.passTime_eq s 1
      refine ⟨((State.Follows.refl s).passTime 1 (fun _ => hm)).trans (State.handExpiries_follows _), ?_⟩
      rw [he, State.handExpiries_eq]
      exact ⟨rfl, rfl⟩
    · exact ⟨.refl s, rfl, rfl⟩
  unfold State.tick
  revert htime
  generalize (if s.time.mount < Config.mountTimeMax then (s.passTime 1).handExpiries else s) = t
  rintro ⟨ht, hsite, hports⟩
  refine ht.trans ⟨fun h => { h with site := ?_, ports := fun x => ?_ }, id, le_rfl, .refl _,
    fun c hc => ⟨c, hc, rfl, le_rfl⟩⟩
  · exact { h.site with
      linkErrors := tickErrors_le _ (hsite ▸ h.site.linkErrors)
      rx := rxIdle_bounded 1 (hsite ▸ h.site.rx) }
  · have hx := h.ports x
    rw [hports] at hx
    simp only [Lanes.get_map]
    exact ⟨rxIdle_bounded 1 hx.rx, hx.service, tickErrors_le _ hx.linkErrors⟩

/-! ## Every command -/

/-- The commands that take in a record or store segments. -/
def takesIn (c : Instr) : Prop :=
  c = .submitTarget ∨ c = .submitOpportunity ∨ c = .appendSegments

/-- Every other command leads to a state with no target_id and no segment that was not there. -/
theorem exec_leads {c : Instr} (hc : ¬ takesIn c) (s : State) :
    ∃ t, exec c s = .next t ∧ s.Leads t := by
  cases c with
  | submitTarget | submitOpportunity | appendSegments => exact absurd (by simp [takesIn]) hc
  | withdrawTarget => exact ⟨_, rfl, takeRequest_leads withdrawTargetBody_follows⟩
  | flushQueue => exact ⟨_, rfl, takeRequest_leads flushQueueBody_follows⟩
  | runQueue => exact ⟨_, rfl, takeRequest_leads runQueueBody_follows⟩
  | holdQueue => exact ⟨_, rfl, takeRequest_leads holdQueueBody_follows⟩
  | readTarget => exact ⟨_, rfl, takeRequest_reads_leads readTargetBody_state⟩
  | readOutcome => exact ⟨_, rfl, takeRequest_reads_leads readOutcomeBody_state⟩
  | readCaptures => exact ⟨_, rfl, takeRequest_reads_leads readCapturesBody_state⟩
  | adjustDwell => exact ⟨_, rfl, takeRequest_leads adjustDwellBody_follows⟩
  | closeChain => exact ⟨_, rfl, takeRequest_leads closeChainBody_follows⟩
  | truncateChain => exact ⟨_, rfl, takeRequest_leads truncateChainBody_follows⟩
  | readChain => exact ⟨_, rfl, takeRequest_reads_leads readChainBody_state⟩
  | unpark => exact ⟨_, rfl, takeRequest_leads unparkBody_follows⟩
  | park => exact ⟨_, rfl, takeRequest_leads parkBody_follows⟩
  | stop => exact ⟨_, rfl, takeRequest_leads stopBody_follows⟩
  | clearAlarm => exact ⟨_, rfl, takeRequest_leads clearAlarmBody_follows⟩
  | writeTerm => exact ⟨_, rfl, takeRequest_leads writeTermBody_follows⟩
  | deleteTerm => exact ⟨_, rfl, takeRequest_leads deleteTermBody_follows⟩
  | commitTerms => exact ⟨_, rfl, takeRequest_leads commitTermsBody_follows⟩
  | readTerms => exact ⟨_, rfl, takeRequest_reads_leads readTermsBody_state⟩
  | pushOffset => exact ⟨_, rfl, takeRequest_leads pushOffsetBody_follows⟩
  | popOffset => exact ⟨_, rfl, takeRequest_leads popOffsetBody_follows⟩
  | replaceTopOffset => exact ⟨_, rfl, takeRequest_leads replaceTopOffsetBody_follows⟩
  | clearOffsets => exact ⟨_, rfl, takeRequest_leads clearOffsetsBody_follows⟩
  | readOffsets => exact ⟨_, rfl, takeRequest_reads_leads readOffsetsBody_state⟩
  | configureGuide => exact ⟨_, rfl, takeRequest_leads configureGuideBody_follows⟩
  | startGuiding => exact ⟨_, rfl, takeRequest_leads startGuidingBody_follows⟩
  | stopGuiding => exact ⟨_, rfl, takeRequest_leads stopGuidingBody_follows⟩
  | setMasks => exact ⟨_, rfl, takeRequest_leads setMasksBody_follows⟩
  | clearConditions => exact ⟨_, rfl, takeRequest_leads clearConditionsBody_follows⟩
  | readConditions => exact ⟨_, rfl, takeRequest_reads_leads readConditionsBody_state⟩
  | loadAxes => exact ⟨_, rfl, takeRequest_leads loadAxesBody_follows⟩
  | loadLimits => exact ⟨_, rfl, takeRequest_leads loadLimitsBody_follows⟩
  | lockLimits => exact ⟨_, rfl, takeRequest_leads lockLimitsBody_follows⟩
  | loadForwarding => exact ⟨_, rfl, takeRequest_leads loadForwardingBody_follows⟩
  | setReportDestination => exact ⟨_, rfl, takeRequest_leads setReportDestinationBody_follows⟩
  | enableSupervision => exact ⟨_, rfl, takeRequest_leads enableSupervisionBody_follows⟩
  | setTime => exact ⟨_, rfl, takeRequest_leads setTimeBody_follows⟩
  | setTimeAtPulse => exact ⟨_, rfl, takeRequest_leads setTimeAtPulseBody_follows⟩
  | readTime => exact ⟨_, rfl, takeRequest_leads readTimeBody_follows⟩
  | peekTime => exact ⟨_, rfl, takeRequest_reads_leads peekTimeBody_state⟩
  | readStatus => exact ⟨_, rfl, takeRequest_leads readStatusBody_follows⟩
  | resetController => exact ⟨_, rfl, takeRequest_leads resetControllerBody_follows⟩
  | unknownRequest => exact ⟨_, rfl, takeRequest_reads_leads (fun _ _ => rfl)⟩
  | requestFrameReception f => exact ⟨_, rfl, (State.receiveLine_follows s _ _).leads⟩
  | guideFrame f => exact ⟨_, rfl, (State.receiveLine_follows s _ _).leads⟩
  | sample x f => exact ⟨_, rfl, (State.receiveLine_follows s _ _).leads⟩
  | proxyServiceFrame f => exact ⟨_, rfl, (State.receiveLine_follows s _ _).leads⟩
  | serviceReply x f => exact ⟨_, rfl, (State.receiveLine_follows s _ _).leads⟩
  | linkError p input => exact ⟨_, rfl, (State.receiveLine_follows s _ _).leads⟩
  | waitIdleReturnToHunt p =>
    refine ⟨_, rfl, State.Follows.leads ?_⟩
    split
    · exact State.receiveLine_follows s _ _
    · exact .refl s
  | siteTransmitStart =>
    refine ⟨_, rfl, State.Follows.leads ?_⟩
    split
    · exact s.startSite_follows
    · exact .refl s
  | axisTransmitStart x =>
    refine ⟨_, rfl, State.Follows.leads ?_⟩
    split
    · exact State.mapPort_follows s x _ AxisPort.start_fits
    · exact .refl s
  | frameTransmissionEnd p =>
    refine ⟨_, rfl, State.Follows.leads ?_⟩
    cases p with
    | site => exact State.site_follows s _ (fun h => { h with }) le_rfl
    | axis x => exact State.mapPort_follows s x _ (fun h => { h with })
  | pinReset straps permit =>
    refine ⟨_, rfl, State.Follows.leads ?_⟩
    split
    · exact State.pinReset_follows s _ _
    · exact (State.pinReset_follows s _ _).trans (State.raiseAlarm_follows _ (by simp [alarmPair]))
  | permitLost =>
    exact ⟨_, rfl, ((State.Follows.of_stores).trans
      (State.raiseAlarm_follows _ (by simp [alarmPair]))).leads⟩
  | permitRise => exact ⟨_, rfl, (State.Follows.of_stores).leads⟩
  | encoderSilent x =>
    refine ⟨_, rfl, State.Follows.leads ?_⟩
    split
    · exact State.raiseAlarm_follows s (by simp [alarmPair])
    · exact .refl s
  | pulseEdge =>
    have hcap : s.Follows s.capturePulse := (State.Follows.refl s).withTime _ (fun h => h)
    refine ⟨_, rfl, State.Follows.leads ?_⟩
    split
    · exact hcap
    · rename_i value hl
      exact State.pulseLoad_follows hcap (fun h => h.2 value hl)
  | shutterEdge e =>
    refine ⟨_, rfl, State.Follows.leads ?_⟩
    split
    · exact State.report_follows s _ _
    · dsimp only
      split
      · exact (State.captureEdge_follows s e).trans (State.raiseCondition_follows _ _ _ _)
      · exact State.captureEdge_follows s e
  | supervisionLapse =>
    refine ⟨_, rfl, State.Follows.leads ?_⟩
    split
    · exact s.lapse_follows
    · exact .refl s
  | graceExpiry =>
    refine ⟨_, rfl, State.Follows.leads ?_⟩
    split
    · exact State.endActive_follows s _ _
    · exact .refl s
  | guideWatchExpiry =>
    refine ⟨_, rfl, State.Follows.leads ?_⟩
    split
    · exact s.expireGuideWatch_follows
    · exact .refl s
  | guideLost =>
    refine ⟨_, rfl, State.Follows.leads ?_⟩
    split
    · exact State.endActive_follows s _ _
    · exact .refl s
  | dwellCompletion => exact ⟨_, rfl, s.dwellCompletion_follows.leads⟩
  | slewCompletion => exact ⟨_, rfl, s.slewCompletion_follows.leads⟩
  | stopCompletion =>
    refine ⟨_, rfl, State.Follows.leads ?_⟩
    split
    · exact State.completeStop_follows s _
    · exact .refl s
  | windowExpiry id =>
    refine ⟨_, rfl, State.Follows.leads ?_⟩
    split
    · exact s.expireHanded_follows.trans (State.retestIfHeadChanged_follows _ _)
    · exact .refl s
  | startTimeReached => exact ⟨_, rfl, s.takeStart_follows.leads⟩

/-! ## The record that a submit request gives (R9, R10, R12) -/

@[simp] theorem getLsbD_byte {n i : Nat} (h : i < 8) : (BitVec.ofNat 8 n).getLsbD i = n.testBit i := by
  rw [BitVec.getLsbD_ofNat, decide_eq_true h, Bool.true_and]

theorem wrapPrefOf_eq (n : Nat) :
    wrapPrefOf n = if 2 < n then none else
      some (if n = 0 then .auto else if n = 1 then .negative else .positive) := by
  match n with
  | 0 | 1 | 2 => rfl
  | n + 3 => rw [if_pos (by omega)]; rfl

theorem guideModeOf_eq (n : Nat) :
    guideModeOf n = if 2 < n then none else
      some (if n = 0 then .none else if n = 1 then .optional else .required) := by
  match n with
  | 0 | 1 | 2 => rfl
  | n + 3 => rw [if_pos (by omega)]; rfl

theorem rotModeOf_eq (n : Nat) (marked : Bool) (angle : Int) :
    rotModeOf n (ifMarked marked angle) =
      if 1 < n ∨ (n = 1 ∧ marked = false) ∨ (n = 0 ∧ marked = true) then none else
        some (if n = 0 then .follow else .fixed angle) := by
  match n, marked with
  | 0, true | 0, false | 1, true | 1, false => rfl
  | n + 2, b =>
    rw [if_pos (by omega)]
    cases b <;> rfl

/-- The conditions that both submit requests put on the first 30 parameter bytes (R10, step 1, and R13, step
1): a field out of its range, a rot_mode that does not agree with rot_fixed, windows out of order, or a
latest_start already passed. -/
def recordBad (p : List Byte) (timeValid : Bool) (mount : Nat) : Prop :=
  natAt p 0 2 = 0 ∨ natAt p 19 4 < 1000 ∨ 14400000 < natAt p 19 4 ∨ 2 < natAt p 23 1 ∨
    1 < natAt p 24 1 ∨ 2 < natAt p 29 1 ∨
    (natAt p 24 1 = 1 ∧ (natAt p 2 1).testBit 2 = false) ∨
    (natAt p 24 1 = 0 ∧ (natAt p 2 1).testBit 2 = true) ∨
    ((natAt p 2 1).testBit 0 = true ∧ (natAt p 2 1).testBit 1 = true ∧
      natAt p 11 8 ≤ natAt p 3 8) ∨
    ((natAt p 2 1).testBit 1 = true ∧ timeValid = true ∧ natAt p 11 8 < mount)

/-- The parameters give a record exactly where no condition fails, and then it is the submitted one. -/
theorem recordOf_eq (p : List Byte) (cls : TargetClass) (timeValid : Bool) (mount : Nat) :
    (recordBad p timeValid mount → recordOf p cls timeValid mount = none) ∧
      (¬ recordBad p timeValid mount →
        recordOf p cls timeValid mount = some (submittedRecord p cls)) := by
  unfold recordBad recordOf submittedRecord
  simp only [wrapPrefOf_eq, guideModeOf_eq, rotModeOf_eq, getLsbD_byte (by omega : 0 < 8),
    getLsbD_byte (by omega : 1 < 8), getLsbD_byte (by omega : 2 < 8)]
  generalize natAt p 0 2 = id, natAt p 19 4 = dwell, natAt p 3 8 = earliest, natAt p 11 8 = latest,
    natAt p 23 1 = wrap, natAt p 24 1 = rot, natAt p 29 1 = guide,
    (natAt p 2 1).testBit 0 = b0, (natAt p 2 1).testBit 1 = b1, (natAt p 2 1).testBit 2 = b2
  by_cases hw : 2 < wrap
  · simp [hw]
  by_cases hr : 1 < rot ∨ (rot = 1 ∧ b2 = false) ∨ (rot = 0 ∧ b2 = true)
  · simp only [hw, hr, if_true, if_false]
    exact ⟨fun _ => trivial, fun h => absurd (by tauto) h⟩
  by_cases hg : 2 < guide
  · simp only [hw, hr, hg, if_true, if_false]
    exact ⟨fun _ => trivial, fun h => absurd (by tauto) h⟩
  simp only [hw, hr, hg, if_false]
  cases b0 <;> cases b1 <;> simp [ifMarked]
  all_goals grind

theorem recordOf_some {p : List Byte} {cls : TargetClass} {timeValid : Bool} {mount : Nat}
    {r : TargetRecord} (h : recordOf p cls timeValid mount = some r) :
    ¬ recordBad p timeValid mount ∧ r = submittedRecord p cls := by
  obtain ⟨hbad, hgood⟩ := recordOf_eq p cls timeValid mount
  by_cases hb : recordBad p timeValid mount
  · rw [hbad hb] at h
    cases h
  · rw [hgood hb] at h
    exact ⟨hb, (Option.some.inj h).symm⟩

/-! ## A record taken in (R6, R11, R14, R67) -/

/-- `t` follows from `s` by operations that take in one record: what `State.Follows` says, but that the
record's target_id joins those that stand, and that chains of at most one segment may be new. -/
structure State.TakesIn (s : State) (r : TargetRecord) (t : State) : Prop where
  fits : s.Fits → t.Fits
  clock : s.clockFits → t.clockFits
  responses : t.site.responses.length ≤ s.site.responses.length
  ids : t.ids.Subperm (r.targetId :: s.ids)
  chains : ∀ c ∈ t.chains, (∃ d ∈ s.chains, c.count ≤ d.count) ∨ c.count ≤ 1

theorem State.TakesIn.trans {s t u : State} {r : TargetRecord} (h : s.TakesIn r t) (k : t.Follows u) :
    s.TakesIn r u where
  fits := k.fits ∘ h.fits
  clock := k.clock ∘ h.clock
  responses := k.responses.trans h.responses
  ids := k.ids.trans h.ids
  chains c hc := by
    obtain ⟨d, hd, -, hn⟩ := k.chains c hc
    rcases h.chains d hd with ⟨e, he, hn'⟩ | hn'
    · exact .inl ⟨e, he, hn.trans hn'⟩
    · exact .inr (hn.trans hn')

/-- A record taken in after operations that take in none. -/
theorem State.Follows.takesIn {s t u : State} {r : TargetRecord} (h : s.Follows t)
    (k : t.TakesIn r u) : s.TakesIn r u where
  fits := k.fits ∘ h.fits
  clock := k.clock ∘ h.clock
  responses := k.responses.trans h.responses
  ids := k.ids.trans ((List.subperm_cons _).mpr h.ids)
  chains c hc := by
    rcases k.chains c hc with ⟨d, hd, hn⟩ | hn
    · obtain ⟨e, he, -, hn'⟩ := h.chains d hd
      exact .inl ⟨e, he, hn.trans hn'⟩
    · exact .inr hn

/-- A record taken in once its chains of at most one segment have been opened. -/
theorem State.TakesIn.of_open {s u : State} {r : TargetRecord} {cs : List Chain}
    (hcs : ∀ c ∈ cs, c.count ≤ 1)
    (h : State.TakesIn { s with chains := s.chains ++ cs } r u) : s.TakesIn r u where
  fits k := h.fits { k with }
  clock := h.clock
  responses := h.responses
  ids := h.ids
  chains c hc := by
    rcases h.chains c hc with ⟨d, hd, hn⟩ | hn
    · rcases List.mem_append.mp hd with hd | hd
      · exact .inl ⟨d, hd, hn⟩
      · exact .inr (hn.trans (hcs d hd))
    · exact .inr hn

/-- A record placed somewhere in a queue that has room. -/
theorem State.place_takesIn (s : State) {r : TargetRecord} {q : List TargetRecord}
    (hq : q.Perm (r :: s.seq.queue)) (hroom : s.seq.queue.length < Config.queueSize)
    (hr : r.capturesFit) : s.TakesIn r (s.setQueue q) where
  fits h := { h with
    queue := by rw [State.setQueue_seq s q |>.1, hq.length_eq]; exact hroom
    queued := fun a ha => by
      rcases List.mem_cons.mp (hq.mem_iff.mp ha) with rfl | ha
      · exact hr
      · exact h.queued a ha }
  clock := id
  responses := le_rfl
  ids := by
    rw [State.ids_eq, State.ids_eq]
    exact ((hq.map (·.targetId)).append_right _).subperm
  chains c hc := .inl ⟨c, hc, le_rfl⟩

/-- A record put into the slot. -/
theorem State.takeSlot_takesIn (s : State) {a : Running} {r : TargetRecord} (p : SlewPlan)
    (hid : a.record.targetId = r.targetId) (ha : a.record.capturesFit) :
    s.TakesIn r (s.takeSlot a p) := by
  unfold State.takeSlot
  refine State.TakesIn.trans ?_ (State.enter_follows _ _)
  refine ⟨fun h => { h with active := ?_ }, id, le_rfl, ?_, fun c hc => .inl ⟨c, hc, le_rfl⟩⟩
  · intro b hb
    obtain rfl := Option.mem_some_iff.mp hb
    exact ha
  · rw [State.ids_eq, State.ids_eq, ← hid]
    exact List.perm_middle.subperm.trans
      ((List.Sublist.append (List.Sublist.refl _) (List.sublist_append_right _ _)).cons_cons _).subperm

/-- The running target pushed onto a shelf that has room (R67). -/
theorem State.pushActive_follows (s : State) (hroom : s.seq.shelf.length < Config.shelfSize) :
    s.Follows s.pushActive := by
  have hsp := s.endSpell_follows
  have hshelf : s.endSpell.seq.shelf = s.seq.shelf := by
    obtain ⟨f, -, h⟩ := State.endSpell_eq s
    rw [h]
  unfold State.pushActive
  dsimp only
  split
  · exact hsp
  · rename_i a ha
    refine hsp.trans ⟨fun h => { h with
      shelf := by simpa [hshelf] using hroom
      active := fun b hb => by cases hb
      shelved := fun e he => ?_ }, id, le_rfl, ?_, fun c hc => ⟨c, hc, rfl, le_rfl⟩⟩
    · rcases List.mem_cons.mp he with rfl | he
      · exact h.active a ha
      · exact h.shelved e he
    · rw [State.ids_eq, State.ids_eq, ha]
      exact .refl _

theorem insertBehind_perm (id : Nat) (r : TargetRecord) (q : List TargetRecord) :
    (insertBehind id r q).Perm (r :: q) := by
  induction q with
  | nil => exact .refl _
  | cons a q ih =>
    unfold insertBehind
    split
    · exact .swap r a q
    · exact (ih.cons a).trans (.swap r a q)

theorem placeRecord_perm (q : List TargetRecord) (after : Option Nat) (r : TargetRecord) :
    (placeRecord q after r).Perm (r :: q) := by
  cases after with
  | none => exact List.perm_append_singleton r q
  | some id => exact insertBehind_perm id r q

/-- A target_id stands exactly where it is one of those of the queue, the slot and the shelf (R6). -/
theorem State.present?_iff (s : State) (id : Nat) : s.present? id = true ↔ id ∈ s.ids := by
  rw [State.ids_eq]
  simp [State.present?, State.queued?, State.active?, State.shelved?, Option.isSome_filter]
  cases s.seq.active <;> simp [or_assoc]

theorem State.submitRefusal_none {s : State} {r : TargetRecord} {after : Option Nat}
    (h : s.submitRefusal r after = none) :
    r.targetId ∉ s.ids ∧ s.seq.queue.length < Config.queueSize := by
  unfold State.submitRefusal at h
  split at h
  · cases h
  · split at h
    · cases h
    · rename_i hp
      rw [State.present?_iff] at hp
      split at h
      · cases h
      · split at h
        · cases h
        · rename_i hl
          exact ⟨hp, Nat.lt_of_not_le hl⟩

/-- A record that may be taken in: a target_id of 1..65535 that does not stand, with an empty capture
list. -/
structure State.mayTakeIn (s : State) (r : TargetRecord) : Prop where
  idPos : 1 ≤ r.targetId
  idLe : r.targetId ≤ 65535
  absent : r.targetId ∉ s.ids
  captures : r.capturesFit

theorem State.mayTakeIn_of_recordOf {s : State} {p : List Byte} {cls : TargetClass} {r : TargetRecord}
    (h : recordOf p cls s.time.valid s.time.mount = some r) (hn : r.targetId ∉ s.ids) :
    s.mayTakeIn r := by
  obtain ⟨hbad, rfl⟩ := recordOf_some h
  refine ⟨Nat.one_le_iff_ne_zero.mpr fun h0 => hbad (.inl h0), ?_, hn, Nat.zero_le _⟩
  exact Nat.le_of_lt_succ (natAt_lt p 0 2)

/-- Submit Target leaves the state as it is or takes in one record (R10, R11). -/
theorem submitTargetBody_cases (p : List Byte) (s : State) :
    (submitTargetBody p s).1 = s ∨
      ∃ r, s.mayTakeIn r ∧ s.TakesIn r (submitTargetBody p s).1 := by
  unfold submitTargetBody
  split
  · exact .inl rfl
  · split
    · exact .inl rfl
    · rename_i r hr
      split
      · exact .inl rfl
      · rename_i hs
        obtain ⟨hn, hroom⟩ := State.submitRefusal_none hs
        have hm := State.mayTakeIn_of_recordOf hr hn
        refine .inr ⟨r, hm, State.TakesIn.trans ?_ (State.retestIfHeadChanged_follows _ _)⟩
        refine State.TakesIn.of_open (cs := r.neededLanes.map (openChain r.targetId)) ?_
          (State.place_takesIn _ (placeRecord_perm _ _ _) hroom hm.captures)
        intro c hc
        obtain ⟨x, -, rfl⟩ := List.mem_map.mp hc
        exact Nat.zero_le _

/-- No lane has two seeds, so a seeded chain holds at most one segment (R13, R14). -/
theorem State.seededChains_count {s : State} {r : TargetRecord} {raw : List (Nat × Segment)}
    {seeds : List (Lane × Segment)} (h : seedLanes r raw = some seeds) :
    ∀ c ∈ s.seededChains r seeds, c.count ≤ 1 := by
  have hnd : (seeds.map (·.1)).Nodup := by
    unfold seedLanes at h
    dsimp only at h
    split at h
    · rename_i hl
      cases h
      exact hl.2.1
    · cases h
  intro c hc
  obtain ⟨x, -, rfl⟩ := List.mem_map.mp hc
  rw [Chain.append_count, List.length_map]
  have hcount := List.nodup_iff_count_le_one.mp hnd x
  rw [List.count, List.countP_map, List.countP_eq_length_filter] at hcount
  simpa [openChain, Chain.count, Function.comp_def, beq_eq_decide] using hcount

/-- Submit Opportunity leaves the state as it is or takes in one record (R13, R14, R67). -/
theorem submitOpportunityBody_cases (p : List Byte) (s : State) :
    (submitOpportunityBody p s).1 = s ∨
      ∃ r, s.mayTakeIn r ∧ s.TakesIn r (submitOpportunityBody p s).1 := by
  unfold submitOpportunityBody
  split
  · exact .inl rfl
  · split
    · exact .inl rfl
    · rename_i r hr
      split
      · exact .inl rfl
      · rename_i seeds hseeds
        split
        · exact .inl rfl
        · split
          · exact .inl rfl
          · rename_i hp
            rw [State.present?_iff] at hp
            have hm := State.mayTakeIn_of_recordOf hr hp
            have hcs := State.seededChains_count (s := s) hseeds
            split
            · exact .inl rfl
            · split
              · unfold State.preempt
                split
                · exact .inl rfl
                · rename_i hroom
                  split
                  · exact .inl rfl
                  · dsimp only
                    split
                    · exact .inl rfl
                    · refine .inr ⟨r, hm, State.TakesIn.of_open hcs ?_⟩
                      unfold State.activate
                      refine State.Follows.takesIn
                        (State.pushActive_follows _ (Nat.lt_of_not_le hroom)) ?_
                      exact State.takeSlot_takesIn _ _ rfl (by exact hm.captures)
              · unfold State.queueFirst
                split
                · exact .inl rfl
                · rename_i hroom
                  refine .inr ⟨r, hm, State.TakesIn.trans ?_ (State.retestIfHeadChanged_follows _ _)⟩
                  exact State.TakesIn.of_open hcs
                    (State.place_takesIn _ (.refl _) (Nat.lt_of_not_le hroom) hm.captures)

/-- Append Segments leaves the state as it is, or stores segments in a chain that has room for them and
goes on by an activation test at most (R31, R33). -/
theorem appendSegmentsBody_cases (p : List Byte) (s : State) :
    (appendSegmentsBody p s).1 = s ∨
      ∃ id x gs c, findChain s.chains id x = some c ∧ gs.length + c.count ≤ Config.chainSize ∧
        (s.storeSegments id x gs).Follows (appendSegmentsBody p s).1 := by
  unfold appendSegmentsBody
  split
  · exact .inl rfl
  · rename_i x _
    split
    · exact .inl rfl
    · unfold State.appendTo
      split
      · exact .inl rfl
      · rename_i c hc
        split
        · exact .inl rfl
        · rename_i hs
          refine .inr ⟨natAt p 0 2, x, appendedSegments p, c, ?_, ?_, ?_⟩
          · unfold State.namedChain at hc
            split at hc
            · cases hc
            · split at hc
              · split at hc
                · rename_i hf
                  cases hc
                  exact hf
                · cases hc
              · cases hc
          · unfold State.appendRefusal at hs
            split at hs
            · cases hs
            · split at hs
              · cases hs
              · rename_i hl
                exact Nat.le_of_not_lt hl
          · dsimp only [accept]
            split
            · exact State.testActivation_follows _
            · exact .refl _

/-! ## What every command keeps -/

/-- A property that no answer, no operation of `State.Leads` and no record taken in can break. -/
structure State.Stable (P : State → Prop) : Prop where
  leads : ∀ {s t : State}, s.Leads t → P s → P t
  respond : ∀ {s : State} (r : Request) (reply : Reply), P s →
    s.site.responses.length < Config.responseSize → P (s.respond r reply)
  intake : ∀ {s t : State} {r : TargetRecord}, s.mayTakeIn r → s.TakesIn r t → P s → P t

/-- A submit request keeps every stable property. -/
theorem State.Stable.keeps_takeRequest {P : State → Prop} (hP : State.Stable P) {cmd : Instr}
    {body : List Byte → State → State × Reply} {s : State} (hs : P s)
    (hbody : ∀ p s, (body p s).1 = s ∨ ∃ r, s.mayTakeIn r ∧ s.TakesIn r (body p s).1) :
    P (takeRequest cmd body s) := by
  refine takeRequest_keeps (fun t q ht hl => hP.leads (State.requests_follow t hl).leads ht)
    (fun t r reply ht hl => hP.respond r reply ht hl) (fun p t ht => ?_) hs
  rcases hbody p t with h | ⟨r, hm, h⟩
  · rw [h]
    exact ⟨ht, le_rfl⟩
  · exact ⟨hP.intake hm h ht, h.responses⟩

/-- Every command but Append Segments keeps every stable property. -/
theorem State.Stable.keeps_exec {P : State → Prop} (hP : State.Stable P) {c : Instr}
    (hc : c ≠ .appendSegments) {s t : State} (hs : P s) (he : exec c s = .next t) : P t := by
  by_cases ht : takesIn c
  · rcases ht with rfl | rfl | rfl
    · cases he
      exact hP.keeps_takeRequest hs submitTargetBody_cases
    · cases he
      exact hP.keeps_takeRequest hs submitOpportunityBody_cases
    · exact absurd rfl hc
  · obtain ⟨u, hu, hl⟩ := exec_leads ht s
    cases hu.symm.trans he
    exact hP.leads hl hs

/-- Append Segments keeps every stable property that no chain enters. -/
theorem State.Stable.keeps_appendSegments {P : State → Prop} (hP : State.Stable P)
    (hchains : ∀ (s : State) (cs : List Chain), P s → P { s with chains := cs }) {s t : State}
    (hs : P s) (he : exec .appendSegments s = .next t) : P t := by
  cases he
  refine takeRequest_keeps (fun t q ht hl => hP.leads (State.requests_follow t hl).leads ht)
    (fun t r reply ht hl => hP.respond r reply ht hl) (fun p t ht => ?_) hs
  rcases appendSegmentsBody_cases p t with h | ⟨id, x, gs, c, -, -, h⟩
  · rw [h]
    exact ⟨ht, le_rfl⟩
  · exact ⟨hP.leads h.leads (hchains _ _ ht), h.responses⟩

/-- Every step keeps every stable property that neither a chain nor the waiting commands enter. -/
theorem State.Stable.keeps_step {P : State → Prop} (hP : State.Stable P)
    (hchains : ∀ (s : State) (cs : List Chain), P s → P { s with chains := cs })
    (hpending : ∀ (s : State) (q : List Instr), P s → P { s with pending := q })
    {s t : State} (hs : P s) (h : step s = .next t) : P t := by
  refine step_keeps hpending (fun c u v hu he => ?_)
    (fun u hu => hP.leads u.tick_follows.leads hu) hs h
  by_cases hc : c = .appendSegments
  · subst hc
    exact hP.keeps_appendSegments hchains hu he
  · exact hP.keeps_exec hc hu he

/-- A step is some command's meaning or one microsecond. -/
theorem step_command_or_tick {s t : State} (h : step s = .next t) :
    (∃ c q, exec c { s with pending := q } = .next t) ∨ t = s.tick := by
  cases hp : s.pending with
  | cons c rest => exact .inl ⟨c, rest, (step_front hp).symm.trans h⟩
  | nil =>
    cases hd : s.nextDue with
    | some c => exact .inl ⟨c, s.pending, (step_due hp hd).symm.trans h⟩
    | none =>
      rw [step_idle hp hd] at h
      cases h
      exact .inr rfl

/-! ## The stable properties -/

theorem nodup_of_subperm {l m : List Nat} (h : l.Subperm m) (hm : m.Nodup) : l.Nodup := by
  obtain ⟨k, hp, hs⟩ := h
  exact hp.nodup_iff.mp (hm.sublist hs)

theorem stable_fits : State.Stable State.Fits where
  leads h := h.fits
  respond r reply h hl := State.respond_fits r reply h hl
  intake _ h := h.fits

theorem stable_clockFits : State.Stable State.clockFits where
  leads h := h.clock
  respond _ _ h _ := h
  intake _ h := h.clock

theorem stable_idsUnique : State.Stable State.idsUnique where
  leads h hs := nodup_of_subperm h.ids hs
  respond _ _ h _ := h
  intake hm h hs := nodup_of_subperm h.ids (List.nodup_cons.mpr ⟨hm.absent, hs⟩)

theorem stable_idsValid : State.Stable State.idsValid where
  leads h hs := by
    rw [State.idsValid_iff] at *
    exact fun id hid => hs id (h.ids.subset hid)
  respond _ _ h _ := h
  intake hm h hs := by
    rw [State.idsValid_iff] at *
    intro id hid
    rcases List.mem_cons.mp (h.ids.subset hid) with rfl | hid
    · exact ⟨hm.idPos, hm.idLe⟩
    · exact hs id hid

theorem stable_chainsFit : State.Stable State.chainsFit where
  leads h hs c hc := by
    obtain ⟨d, hd, -, hn⟩ := h.chains c hc
    exact hn.trans (hs d hd)
  respond _ _ h _ := h
  intake _ h hs c hc := by
    rcases h.chains c hc with ⟨d, hd, hn⟩ | hn
    · exact hn.trans (hs d hd)
    · exact hn.trans (by decide)

/-! ## Segments stored in one chain (R26, R31) -/

/-- Whatever a request does to the chains, its body does. -/
theorem takeRequest_chains (cmd : Instr) (body : List Byte → State → State × Reply) (s : State) :
    (takeRequest cmd body s).chains = s.chains ∨
      ∃ p rest, (takeRequest cmd body s).chains =
        (body p { s with site.requests := rest }).1.chains := by
  unfold takeRequest
  split
  · exact .inl rfl
  · rename_i r rest _
    split
    · dsimp only
      split
      · split
        · exact .inr ⟨_, _, rfl⟩
        · exact .inl rfl
      · exact .inr ⟨_, _, rfl⟩
    · exact .inl rfl

theorem TargetRecord.neededLanes_nodup (r : TargetRecord) : r.neededLanes.Nodup := by
  unfold TargetRecord.neededLanes
  split <;> decide

/-- No two chain headers have one owner and one lane (R26). -/
theorem State.chainKeys_nodup {s : State} (hids : s.idsUnique) (hheaders : s.headersMatch) :
    (s.chains.map Chain.key).Nodup := by
  refine hheaders.nodup_iff.mpr (List.nodup_flatMap.mpr ⟨fun r _ => ?_, ?_⟩)
  · exact r.neededLanes_nodup.map fun x y h => (Prod.mk.inj h).2
  · refine (List.pairwise_map.mp hids).imp fun {r q} hne k hr hq => hne ?_
    obtain ⟨x, -, rfl⟩ := List.mem_map.mp hr
    obtain ⟨y, -, hy⟩ := List.mem_map.mp hq
    exact (Prod.mk.inj hy).1.symm

/-- Storing in a chain as many segments as it has room for keeps every chain's bound. -/
theorem State.storeSegments_chainsFit {s : State} {id : Nat} {x : Lane} {gs : List Segment} {c : Chain}
    (hkeys : (s.chains.map Chain.key).Nodup) (hfit : s.chainsFit)
    (hc : findChain s.chains id x = some c) (hroom : gs.length + c.count ≤ Config.chainSize) :
    (s.storeSegments id x gs).chainsFit := by
  have hkey := List.find?_some hc
  intro d hd
  obtain ⟨e, he, rfl⟩ := List.mem_map.mp hd
  split
  · rename_i hm
    have hec : e = c := by
      refine List.inj_on_of_nodup_map hkeys he (List.mem_of_find?_eq_some hc) ?_
      simp only [Bool.and_eq_true, beq_iff_eq] at hm hkey
      simp [Chain.key, hm, hkey]
    rw [hec]
    exact (Chain.append_count ..).trans_le ((Nat.add_comm _ _).trans_le hroom)
  · exact hfit e he

theorem exec_appendSegments_chainsFit {s t : State} (hids : s.idsUnique)
    (hheaders : s.headersMatch) (hfit : s.chainsFit) (he : exec .appendSegments s = .next t) :
    t.chainsFit := by
  cases he
  rcases takeRequest_chains .appendSegments appendSegmentsBody s with h | ⟨p, rest, h⟩
  · unfold State.chainsFit
    rw [h]
    exact hfit
  · unfold State.chainsFit
    rw [h]
    rcases appendSegmentsBody_cases p { s with site.requests := rest } with
      h | ⟨id, x, gs, c, hc, hroom, h⟩
    · rw [h]
      exact hfit
    · refine stable_chainsFit.leads h.leads (State.storeSegments_chainsFit ?_ ?_ hc hroom)
      · exact State.chainKeys_nodup hids hheaders
      · exact hfit

/-! ## The two obligations -/

/-- Settles O6: stores and clock are stable under every command, and so are the chains under every
command but Append Segments, which stores in the one chain that has room. -/
theorem storesAndClockStayBounded : Obligations.StoresAndClockStayBounded := by
  unfold Obligations.StoresAndClockStayBounded
  refine ⟨fun s t hs h => ?_, fun s t hs h => ?_, fun s t _ hids hheaders hfit h => ?_⟩
  · rw [State.bounded_iff] at *
    exact stable_fits.keeps_step (fun _ _ k => { k with }) (fun _ _ k => { k with }) hs h
  · exact stable_clockFits.keeps_step (fun _ _ k => k) (fun _ _ k => k) hs h
  · rcases step_command_or_tick h with ⟨c, q, he⟩ | rfl
    · by_cases hc : c = .appendSegments
      · subst hc
        exact exec_appendSegments_chainsFit (s := { s with pending := q }) hids hheaders hfit he
      · exact stable_chainsFit.keeps_exec (s := { s with pending := q }) hc hfit he
    · exact stable_chainsFit.leads s.tick_follows.leads hfit

/-- Settles O10: no command repeats a target_id or takes in one outside 1..65535. -/
theorem targetIdsStayUnique : Obligations.TargetIdsStayUnique :=
  ⟨fun _ _ hs h => stable_idsUnique.keeps_step (fun _ _ k => k) (fun _ _ k => k) hs h,
    fun _ _ hs h => stable_idsValid.keeps_step (fun _ _ k => k) (fun _ _ k => k) hs h⟩

/-! ## What a pin reset leaves -/

/-- Settles O3: the reset state is a closed value, read field by field. -/
theorem resetStateValues : Obligations.ResetStateValues := by
  refine ⟨?_, ?_, ?_, ?_, ?_, fun x => ?_, ?_, fun x => ?_, ?_, ?_⟩
  case refine_6 => cases x <;> exact ⟨rfl, rfl, rfl⟩
  case refine_8 => cases x <;> exact ⟨rfl, rfl, rfl, rfl, rfl, rfl, rfl⟩
  all_goals and_intros <;> rfl

/-- Settles O5: every store of the reset state is empty and it is at rest in PARKED. -/
theorem invariantsHoldAtReset : Obligations.InvariantsHoldAtReset := by
  refine ⟨(State.bounded_iff _).mpr State.reset_fits, rfl, ⟨rfl, fun _ => rfl⟩, rfl,
    fun _ x => ?_, List.nodup_nil, .refl _, Nat.zero_le _, fun _ h => ?_, ⟨Nat.zero_le _, fun _ h => ?_⟩,
    fun h => ?_, ⟨rfl, rfl⟩, ⟨fun _ => by decide, fun h => ?_, rfl⟩, fun _ h => ?_, fun _ h => ?_⟩
  case refine_1 => cases x <;> rfl
  all_goals cases h

/-! ## A request answered (R173) -/

section

variable {s t u : State} {r : Request} {rest : List Request} {code : Byte} {p : List Byte} {reply : Reply}

/-- A state whose taken request is answered. -/
theorem State.respond_taken (h : s.asks r rest code p) :
    State.respond { u with site.requests := rest } r reply = u.answered r rest code reply := by
  simp only [State.respond, State.answered, h.2.1, List.headD_cons]

/-- A request that its body leaves in a state and answers. -/
theorem exec_answers {cmd : Instr} {body : List Byte → State → State × Reply}
    (h : s.asks r rest code p) (hc : requestOf (code :: p) = cmd)
    (he : exec cmd s = .next (takeRequest cmd body s))
    (hb : body p { s with site.requests := rest } = ({ u with site.requests := rest }, reply)) :
    exec cmd s = .next (u.answered r rest code reply) := by
  rw [he, takeRequest_asks h hc, hb, State.respond_taken h]

/-! ## The reading requests (R22, R23, R24, R37, R101, R109, R152, R162) -/

theorem readTargetBody_of_valid (hl : p.length = 2) (hi : natAt p 0 2 ≠ 0) :
    readTargetBody p t = t.readTarget (natAt p 0 2) := by
  simp [readTargetBody, hl, hi]

theorem State.readTarget_active {id : Nat} {a : Running} (ha : t.active? id = some a) :
    t.readTarget id = (t, okReply (targetBytes .active 0 a.record (some a.ctx.dwellRemaining))) := by
  simp only [State.readTarget, ha]
  rfl

theorem State.readTarget_shelved {id : Nat} {e : Running} (ha : t.active? id = none)
    (he : t.shelved? id = some e) :
    t.readTarget id = (t, okReply (targetBytes .shelved
      (positionOf id (t.seq.shelf.map (·.record.targetId))) e.record (some e.ctx.dwellRemaining))) := by
  simp only [State.readTarget, ha, he]
  rfl

theorem State.readTarget_queued {id : Nat} {q : TargetRecord} (ha : t.active? id = none)
    (he : t.shelved? id = none) (hq : t.queued? id = some q) :
    t.readTarget id = (t, okReply (targetBytes .queued
      (positionOf id (t.seq.queue.map (·.targetId))) q none)) := by
  simp only [State.readTarget, ha, he, hq]
  rfl

theorem readOutcomeBody_found {e : OutcomeEntry} (hl : p.length = 2) (hi : natAt p 0 2 ≠ 0)
    (he : t.outcome? (natAt p 0 2) = some e) :
    readOutcomeBody p t = (t, okReply (outcomeBytes e t.seq.outcomes.length)) := by
  simp [readOutcomeBody, hl, hi, he, accept, okReply]

/-- What Read Captures answers by where the record is found. -/
theorem readCapturesBody_of_valid (hl : p.length = 3) (hi : natAt p 0 2 ≠ 0) (hp : natAt p 2 1 ≤ 1) :
    (∀ a, t.active? (natAt p 0 2) = some a →
      readCapturesBody p t = (t, okReply (capturesBytes 1 (natAt p 2 1) a.record))) ∧
    (∀ e, t.active? (natAt p 0 2) = none → t.shelved? (natAt p 0 2) = some e →
      readCapturesBody p t = (t, okReply (capturesBytes 2 (natAt p 2 1) e.record))) ∧
    (∀ q, t.active? (natAt p 0 2) = none → t.shelved? (natAt p 0 2) = none →
      t.queued? (natAt p 0 2) = some q →
      readCapturesBody p t = (t, okReply (capturesBytes 0 (natAt p 2 1) q))) ∧
    ∀ e, t.active? (natAt p 0 2) = none → t.shelved? (natAt p 0 2) = none →
      t.queued? (natAt p 0 2) = none → t.outcome? (natAt p 0 2) = some e →
      readCapturesBody p t = (t, okReply (capturesBytes 3 (natAt p 2 1) e.record)) := by
  have hv : ¬ (p.length ≠ 3 ∨ natAt p 0 2 = 0 ∨ 1 < natAt p 2 1) := by omega
  unfold readCapturesBody
  rw [if_neg hv]
  refine ⟨fun a ha => ?_, fun e ha he => ?_, fun q ha he hq => ?_, fun e ha he hq ho => ?_⟩
  · simp only [ha]; rfl
  · simp only [ha, he]; rfl
  · simp only [ha, he, hq]; rfl
  · simp only [ha, he, hq, ho]; rfl

theorem State.present?_eq_false {id : Nat} (h : t.present? id = false) :
    t.queued? id = none ∧ t.active? id = none ∧ t.shelved? id = none := by
  simpa [State.present?, and_assoc] using h

theorem readChainBody_found {x : Lane} {c : Chain} (hl : p.length = 4) (hi : natAt p 0 2 ≠ 0)
    (hf : natAt p 3 1 ≤ 127) (hx : laneOf (natAt p 2 1) = some x)
    (hc : t.namedChain (natAt p 0 2) x = .ok c) :
    readChainBody p t = (t, okReply (chainBytes c (natAt p 3 1))) := by
  have hv : ¬ (p.length ≠ 4 ∨ natAt p 0 2 = 0 ∨ 127 < natAt p 3 1) := by omega
  simp only [readChainBody, hx, if_neg hv, hc]
  rfl

theorem readOffsetsBody_active {a : Running} (ha : t.seq.active = some a) :
    readOffsetsBody [] t = (t, okReply
      (natBytes 2 a.record.targetId ++ natBytes 1 a.ctx.stack.top ++
        stackBytes a.ctx.stack.top 0 a.ctx.stack.entries ++
        lanesBytes a.ctx.stack.effectiveAll ++ lanesBytes (a.ctx.applied.map wholeMas))) := by
  simp only [readOffsetsBody, ne_eq, not_true_eq_false, if_false, ha]
  rfl

end

/-- Settles O24: each reading request's body answers what it reads and returns its state. -/
theorem readingRequestsChangeNothing : Obligations.ReadingRequestsChangeNothing := by
  intro s r rest p
  refine ⟨fun h hl hi => ⟨fun a ha => ?_, fun e ha he => ?_, fun q ha he hq => ?_⟩,
    fun e h hl hi he => exec_answers h rfl rfl (readOutcomeBody_found hl hi he),
    fun h hl hi hp => ?_,
    fun x c h hl hi hf hx hc => exec_answers h rfl rfl (readChainBody_found hl hi hf hx hc),
    fun h => exec_answers h rfl rfl rfl, fun h => exec_answers h rfl rfl rfl,
    fun a h ha => exec_answers h rfl rfl (readOffsetsBody_active ha),
    fun h => exec_answers h rfl rfl rfl, fun h => exec_answers h rfl rfl rfl⟩
  · exact exec_answers h rfl rfl ((readTargetBody_of_valid hl hi).trans (State.readTarget_active ha))
  · exact exec_answers h rfl rfl ((readTargetBody_of_valid hl hi).trans (State.readTarget_shelved ha he))
  · exact exec_answers h rfl rfl
      ((readTargetBody_of_valid hl hi).trans (State.readTarget_queued ha he hq))
  · obtain ⟨hactive, hshelved, hqueued, hlisted⟩ :=
      readCapturesBody_of_valid (t := { s with site.requests := rest }) hl hi hp
    refine ⟨fun a ha => exec_answers h rfl rfl (hactive a ha),
      fun e ha he => exec_answers h rfl rfl (hshelved e ha he),
      fun q ha he hq => exec_answers h rfl rfl (hqueued q ha he hq), fun e hp ho => ?_⟩
    obtain ⟨hq, ha, he⟩ := State.present?_eq_false hp
    exact exec_answers h rfl rfl (hlisted e ha he hq ho)

/-- A request whose body leaves a state with the rest of the buffer and answers. -/
theorem exec_answers_body {cmd : Instr} {body : List Byte → State → State × Reply} {s t : State}
    {r : Request} {rest : List Request} {code : Byte} {p : List Byte} {reply : Reply}
    (h : s.asks r rest code p) (hc : requestOf (code :: p) = cmd)
    (he : exec cmd s = .next (takeRequest cmd body s))
    (hb : body p { s with site.requests := rest } = (t, reply)) (ht : t.site.requests = rest) :
    exec cmd s = .next (t.answered r rest code reply) := by
  subst ht
  exact exec_answers h hc he hb

/-! ## Flush Queue (R19) -/

/-- Settles O22: the queued records depart one after another, which is `State.departed` of them all. -/
theorem flushQueueEmptiesQueue : Obligations.FlushQueueEmptiesQueue := by
  intro s r rest h
  let taken : State := { s with site.requests := rest }
  let t := taken.departAllQueued s.seq.queue .withdrawn .flush
  obtain ⟨starved, startHanded, expiryHanded, he⟩ :=
    State.departAllQueued_eq .withdrawn .flush s.seq.queue taken
  have ht : t.site = taken.site := by rw [show t = _ from he]; rfl
  refine ⟨t, exec_answers_body h rfl rfl rfl (by rw [ht]), State.departAllQueued_all taken _ _, ?_⟩
  have hrep : (leaving s.seq.queue .withdrawn .flush .queued s.time.mount).foldl (fun u e =>
      offerReport u (.targetOutcome e.verdict e.reason e.axis e.place) e.time e.record.targetId) s.rep =
      s.seq.queue.foldl (fun u q =>
        offerReport u (.targetOutcome .withdrawn .flush none .queued) s.time.mount q.targetId) s.rep :=
    List.foldl_map
  have hids : (leaving s.seq.queue .withdrawn .flush .queued s.time.mount).map
      (·.record.targetId) = s.seq.queue.map (·.targetId) := List.map_map
  rw [show t = _ from he, ← hrep, ← hids]
  and_intros <;> rfl

/-! ## The activation test that cannot run (R51) -/

theorem State.mayActivate_eq_false {s : State} (h : s.seq.motion ≠ .idle ∨ s.seq.mode = .hold)
    (r : TargetRecord) : s.mayActivate false r = false := by
  rcases h with h | h <;> simp [State.mayActivate, h]

/-- Outside IDLE, or with the queue held, the activation test changes nothing (R51). -/
theorem State.testActivation_silent {s : State} (h : s.seq.motion ≠ .idle ∨ s.seq.mode = .hold) :
    s.testActivation = s :=
  activationTest_silent _ _ _ _ fun r _ _ => State.mayActivate_eq_false h r

theorem State.retestIfHeadChanged_silent {s u : State} (h : s.seq.motion ≠ .idle ∨ s.seq.mode = .hold) :
    s.retestIfHeadChanged u = s := by
  unfold State.retestIfHeadChanged
  split
  · rfl
  · exact State.testActivation_silent h

/-! ## Queued departures one after another (R15, R16, R20) -/

/-- The model's replacement of the queue is `State.queued`. -/
theorem State.setQueue_eq (s : State) (q : List TargetRecord) : s.setQueue q = s.queued q := by
  simp [State.setQueue, State.queued, queuedIds]

/-- One queued departure. -/
theorem State.departQueued_eq (s : State) (r : TargetRecord) (v : Verdict) (why : Reason) :
    s.departQueued r v why =
      (s.departed (leaving [r] v why .queued s.time.mount)).queued (withoutRecords s.seq.queue [r]) := by
  have hq : s.seq.queue.filter (fun q => q.targetId != r.targetId) =
      withoutRecords s.seq.queue [r] :=
    List.filter_congr fun q _ => by by_cases h : q.targetId = r.targetId <;> simp [h]
  rw [State.departQueued, hq, State.setQueue_eq, State.depart_eq]
  rfl

/-- A record taken out of a queue does not become its head again, since no target_id is 0. -/
theorem headId_withoutRecords {q rs ds : List TargetRecord} (hq : ∀ a ∈ q, a.targetId ≠ 0)
    (h : headId (withoutRecords (withoutRecords q rs) ds) = headId q) :
    headId (withoutRecords q rs) = headId q := by
  cases q with
  | nil => rfl
  | cons a q =>
    by_cases ha : a.targetId ∈ rs.map (·.targetId)
    · have hout : ∀ b ∈ withoutRecords (withoutRecords (a :: q) rs) ds, b.targetId ≠ a.targetId := by
        intro b hb hba
        have hb' := (List.mem_filter.mp (List.mem_filter.mp hb).1).2
        rw [hba] at hb'
        exact absurd ha (of_decide_eq_true hb')
      cases hl : withoutRecords (withoutRecords (a :: q) rs) ds with
      | nil =>
        rw [hl] at h
        exact absurd h.symm (hq a List.mem_cons_self)
      | cons b l =>
        rw [hl] at h hout
        exact absurd h (hout b List.mem_cons_self)
    · rw [withoutRecords, List.filter_cons, if_pos (decide_eq_true ha)]
      rfl

/-- Records taken out of a queue and then some more are all of them taken out. -/
theorem withoutRecords_append (q rs ds : List TargetRecord) :
    withoutRecords (withoutRecords q rs) ds = withoutRecords q (rs ++ ds) := by
  simp only [withoutRecords, List.filter_filter, List.map_append]
  refine List.filter_congr fun a _ => ?_
  by_cases h : a.targetId ∈ rs.map (·.targetId) <;>
    by_cases k : a.targetId ∈ ds.map (·.targetId) <;> simp_all

/-- A queue replaced twice, field by field. -/
theorem State.queued_twice (s : State) (q d : List TargetRecord) :
    (s.queued q).queued d = { s with
      seq.queue := d
      seq.starved := s.seq.starved && decide (headId q = headId s.seq.queue) &&
        decide (headId d = headId q)
      seq.startHanded := s.seq.startHanded && decide (headId q = headId s.seq.queue) &&
        decide (headId d = headId q)
      seq.expiryHanded := (d.filter (fun a => decide (a.targetId ∈
        (q.filter (fun b => decide (b.targetId ∈ s.seq.expiryHanded))).map (·.targetId)))).map
          (·.targetId) } := rfl

/-- The marks of a queue that is replaced twice by fewer records are those of the last replacement. -/
theorem State.queued_queued {s : State} (hq : ∀ a ∈ s.seq.queue, a.targetId ≠ 0)
    (rs ds : List TargetRecord) :
    (s.queued (withoutRecords s.seq.queue rs)).queued
        (withoutRecords (withoutRecords s.seq.queue rs) ds) =
      s.queued (withoutRecords s.seq.queue (rs ++ ds)) := by
  have hhead : (decide (headId (withoutRecords s.seq.queue rs) = headId s.seq.queue) &&
      decide (headId (withoutRecords (withoutRecords s.seq.queue rs) ds) =
        headId (withoutRecords s.seq.queue rs))) =
      decide (headId (withoutRecords (withoutRecords s.seq.queue rs) ds) = headId s.seq.queue) := by
    have hk := headId_withoutRecords (rs := rs) (ds := ds) hq
    rw [Bool.eq_iff_iff]
    simp only [Bool.and_eq_true, decide_eq_true_eq]
    exact ⟨fun h => h.2.trans h.1, fun h => ⟨hk h, h.trans (hk h).symm⟩⟩
  have hexp : (withoutRecords (withoutRecords s.seq.queue rs) ds).filter (fun q => decide
      (q.targetId ∈ ((withoutRecords s.seq.queue rs).filter (fun q => decide
        (q.targetId ∈ s.seq.expiryHanded))).map (·.targetId))) =
      (withoutRecords (withoutRecords s.seq.queue rs) ds).filter (fun q => decide
        (q.targetId ∈ s.seq.expiryHanded)) := by
    refine List.filter_congr fun a ha => decide_eq_decide.mpr ⟨fun h => ?_, fun h => ?_⟩
    · obtain ⟨b, hb, hba⟩ := List.mem_map.mp h
      exact hba ▸ of_decide_eq_true (List.mem_filter.mp hb).2
    · exact List.mem_map.mpr
        ⟨a, List.mem_filter.mpr ⟨(List.mem_filter.mp ha).1, decide_eq_true h⟩, rfl⟩
  rw [← withoutRecords_append]
  rw [State.queued_twice, Bool.and_assoc, Bool.and_assoc, hhead, hexp]
  rfl

/-- At least one queued departure: the records leave as `State.departed` says, and the queue is replaced
once. -/
theorem State.departAllQueued_cons (v : Verdict) (why : Reason) (rs : List TargetRecord) :
    ∀ (s : State) (r : TargetRecord), (∀ a ∈ s.seq.queue, a.targetId ≠ 0) →
      s.departAllQueued (r :: rs) v why =
        (s.departed (leaving (r :: rs) v why .queued s.time.mount)).queued
          (withoutRecords s.seq.queue (r :: rs)) := by
  induction rs with
  | nil => exact fun s r _ => State.departQueued_eq s r v why
  | cons d ds ih =>
    intro s r hq
    have hstep : s.departAllQueued (r :: d :: ds) v why =
        (s.departQueued r v why).departAllQueued (d :: ds) v why := rfl
    have hq' : ∀ a ∈ (s.departQueued r v why).seq.queue, a.targetId ≠ 0 := by
      rw [(State.departQueued_seq s r v why).1]
      exact fun a ha => hq a (List.mem_filter.mp ha).1
    have hcomm : ∀ (es : List OutcomeEntry) (t : State) (q : List TargetRecord),
        (t.queued q).departed es = (t.departed es).queued q := fun _ _ _ => rfl
    rw [hstep, ih _ d hq', State.departQueued_eq]
    calc
      _ = (((s.departed (leaving [r] v why .queued s.time.mount)).departed
            (leaving (d :: ds) v why .queued s.time.mount)).queued
              (withoutRecords s.seq.queue [r])).queued
            (withoutRecords (withoutRecords s.seq.queue [r]) (d :: ds)) := by rw [← hcomm]; rfl
      _ = _ := by
        rw [State.departed_append]
        exact State.queued_queued
          (s := s.departed (leaving (r :: d :: ds) v why .queued s.time.mount)) hq [r] (d :: ds)

/-! ## Window expiry (R15, R16, R165) -/

/-- The queued records whose window-expiry event has been handed over (R165). -/
def State.handed (s : State) : List TargetRecord :=
  s.seq.queue.filter (fun q => decide (q.targetId ∈ s.seq.expiryHanded))

theorem State.windowDue_iff (s : State) (id : Nat) :
    s.windowDue id = true ↔ ∃ q ∈ s.handed, q.targetId = id := by
  simp only [State.windowDue, State.handed, Bool.and_eq_true, List.contains_iff_mem, List.any_eq_true,
    decide_eq_true_eq, List.mem_filter]
  exact ⟨fun ⟨h, q, hq, hi⟩ => ⟨q, ⟨hq, hi ▸ h⟩, hi⟩, fun ⟨q, ⟨hq, h⟩, hi⟩ => ⟨hi ▸ h, q, hq, hi⟩⟩

/-- With at least one expiry handed over, the expired records leave and the queue is replaced once. -/
theorem State.expireHanded_eq {s : State} (hids : s.idsValid) (h : s.handed ≠ []) :
    s.expireHanded = (s.departed (leaving s.handed .expired .none .queued s.time.mount)).queued
      (withoutRecords s.seq.queue s.handed) := by
  have hq : ∀ a ∈ s.seq.queue, a.targetId ≠ 0 := fun a ha =>
    Nat.one_le_iff_ne_zero.mp (hids a (by simp [State.standing, ha])).1
  have he : s.expireHanded = s.departAllQueued s.handed .expired .none := by
    simp [State.expireHanded, State.handed]
  rw [he]
  obtain ⟨r, rs, hr⟩ := List.exists_cons_of_ne_nil h
  rw [hr]
  exact State.departAllQueued_cons _ _ rs s r hq

/-- Settles O58: the event is due exactly for a handed-over record, and then all of them leave. -/
theorem passedWindowsExpire : Obligations.PassedWindowsExpire := by
  intro s id hids
  refine ⟨fun h => ?_, fun ⟨q, hq, hi⟩ => ?_⟩
  · have hd : ¬ s.windowDue id = true := by
      rw [State.windowDue_iff]
      exact fun ⟨q, hq, hi⟩ => h q hq hi
    exact congrArg _ (if_neg hd)
  · have hd : s.windowDue id = true := (State.windowDue_iff s id).mpr ⟨q, hq, hi⟩
    have hexec : exec (.windowExpiry id) s = .next (s.expireHanded.retestIfHeadChanged s) :=
      congrArg _ (if_pos hd)
    rw [State.expireHanded_eq hids (List.ne_nil_of_mem hq)] at hexec
    exact ⟨fun hm => hexec.trans (congrArg _ (State.retestIfHeadChanged_silent (.inl hm))), fun _ => hexec⟩

/-! ## The checks of Submit Target (R10) -/

theorem afterIdOf_eq (p : List Byte) : afterIdOf p = submittedAfter p := by
  unfold afterIdOf submittedAfter ifMarked
  rw [getLsbD_byte (by omega)]

/-- The first check of Submit Target fails for its length, its presence byte, an after_id of 0, or a field
of the record. -/
theorem State.submitTargetBad_iff (s : State) (p : List Byte) :
    s.submitTargetBad p ↔ (p.length ≠ 32 ∨ 16 ≤ natAt p 2 1 ∨ afterIdOf p = some 0) ∨
      recordBad p s.time.valid s.time.mount := by
  have hafter : afterIdOf p = some 0 ↔ (natAt p 2 1).testBit 3 = true ∧ natAt p 30 2 = 0 := by
    rw [afterIdOf_eq, submittedAfter]
    split <;> simp [*]
  have hgroup : s.submitTargetBad p ↔ p.length ≠ 32 ∨ 16 ≤ natAt p 2 1 ∨
      recordBad p s.time.valid s.time.mount ∨ ((natAt p 2 1).testBit 3 = true ∧ natAt p 30 2 = 0) := by
    simp only [State.submitTargetBad, recordBad, or_assoc]
  rw [hafter, hgroup]
  tauto

/-- rot_fixed cannot be checked, since no limits are loaded (R10, step 2). -/
def State.fixedUnready (s : State) (p : List Byte) : Prop :=
  natAt p 24 1 = 1 ∧ s.planner.limits = none

/-- rot_fixed lies outside the soft limits (R10, step 3). -/
def State.fixedOutside (s : State) (p : List Byte) : Prop :=
  natAt p 24 1 = 1 ∧ ∃ l, s.planner.limits = some l ∧
    (intAt p 25 4 < l.rot.softMin ∨ l.rot.softMax < intAt p 25 4)

/-- after_id names no queued record (R10, step 5). -/
def State.afterMissing (s : State) (p : List Byte) : Prop :=
  ∃ id, submittedAfter p = some id ∧ id ∉ s.seq.queue.map (·.targetId)

/-- The two rot_fixed checks, of a rot_mode that is FOLLOW or FIXED. -/
theorem State.fixedRefusal_submitted (s : State) {p : List Byte} (cls : TargetClass)
    (hrot : natAt p 24 1 ≤ 1) :
    (s.fixedUnready p → s.fixedRefusal (submittedRecord p cls) = some .notReady) ∧
      (¬ s.fixedUnready p → s.fixedOutside p →
        s.fixedRefusal (submittedRecord p cls) = some .outOfLimits) ∧
      (¬ s.fixedUnready p → ¬ s.fixedOutside p → s.fixedRefusal (submittedRecord p cls) = none) := by
  unfold State.fixedUnready State.fixedOutside State.fixedRefusal submittedRecord
  rcases Nat.le_one_iff_eq_zero_or_eq_one.mp hrot with h | h
  · simp [h]
  · cases hl : s.planner.limits with
    | none => simp [h]
    | some l =>
      by_cases hin : l.rot.softMin ≤ intAt p 25 4 ∧ intAt p 25 4 ≤ l.rot.softMax
      · simp [h, hin, hin.1.not_gt, hin.2.not_gt]
      · have hout : intAt p 25 4 < l.rot.softMin ∨ l.rot.softMax < intAt p 25 4 := by omega
        simp [h, hin, hout]

theorem State.afterMissing_iff (s : State) (p : List Byte) :
    (afterIdOf p).any (fun id => (s.queued? id).isNone) = true ↔ s.afterMissing p := by
  rw [afterIdOf_eq]
  cases h : submittedAfter p with
  | none => simp [State.afterMissing, h]
  | some id => simp [State.afterMissing, h, State.queued?]

/-- The five checks behind the first, in their order (R10). -/
theorem State.submitRefusal_spec (s : State) {p : List Byte} (hrot : natAt p 24 1 ≤ 1) :
    let refusal := s.submitRefusal (submittedRecord p .normal) (afterIdOf p)
    (s.fixedUnready p → refusal = some .notReady) ∧
      (¬ s.fixedUnready p → s.fixedOutside p → refusal = some .outOfLimits) ∧
      (¬ s.fixedUnready p → ¬ s.fixedOutside p →
        (natAt p 0 2 ∈ s.ids → refusal = some .duplicateId) ∧
        (natAt p 0 2 ∉ s.ids → s.afterMissing p → refusal = some .notFound) ∧
        (natAt p 0 2 ∉ s.ids → ¬ s.afterMissing p → 64 ≤ s.seq.queue.length →
          refusal = some .queueFull) ∧
        (natAt p 0 2 ∉ s.ids → ¬ s.afterMissing p → ¬ 64 ≤ s.seq.queue.length → refusal = none)) := by
  obtain ⟨hunready, houtside, hfixed⟩ := s.fixedRefusal_submitted .normal hrot
  have hpresent := s.present?_iff (natAt p 0 2)
  have hmissing := s.afterMissing_iff p
  dsimp only
  unfold State.submitRefusal
  refine ⟨fun h => by rw [hunready h], fun h k => by rw [houtside h k], fun h k => ?_⟩
  rw [hfixed h k]
  refine ⟨fun hd => if_pos (hpresent.mpr hd), fun hd hm => ?_, fun hd hm hf => ?_, fun hd hm hf => ?_⟩
  all_goals refine (if_neg (hpresent.not.mpr hd)).trans ?_
  · exact if_pos (hmissing.mpr hm)
  · exact (if_neg (hmissing.not.mpr hm)).trans (if_pos hf)
  · exact (if_neg (hmissing.not.mpr hm)).trans (if_neg hf)

/-- Submit Target answers the first check that fails, and OK where none does (R10). -/
theorem State.SubmitTargetAnswers_iff_of_good {s : State} {p : List Byte} {status : Status}
    (hbad : ¬ s.submitTargetBad p) :
    s.SubmitTargetAnswers p status ↔
      status = (s.submitRefusal (submittedRecord p .normal) (afterIdOf p)).getD .ok := by
  have hrot : natAt p 24 1 ≤ 1 := by
    by_contra h
    exact hbad (by unfold State.submitTargetBad; omega)
  obtain ⟨h1, h2, hrest⟩ := s.submitRefusal_spec hrot
  unfold State.SubmitTargetAnswers
  change (_ ∧ (¬ _ → s.fixedUnready p → _) ∧ (¬ _ → ¬ s.fixedUnready p → s.fixedOutside p → _) ∧
    (¬ _ → ¬ s.fixedUnready p → ¬ s.fixedOutside p → natAt p 0 2 ∈ s.ids → _) ∧
    (¬ _ → ¬ s.fixedUnready p → ¬ s.fixedOutside p → natAt p 0 2 ∉ s.ids → s.afterMissing p → _) ∧
    (¬ _ → ¬ s.fixedUnready p → ¬ s.fixedOutside p → natAt p 0 2 ∉ s.ids → ¬ s.afterMissing p → _) ∧
    (¬ _ → ¬ s.fixedUnready p → ¬ s.fixedOutside p → natAt p 0 2 ∉ s.ids → ¬ s.afterMissing p → _))
      ↔ _
  by_cases hu : s.fixedUnready p
  · simp [hbad, hu, h1 hu]
  by_cases ho : s.fixedOutside p
  · simp [hbad, hu, ho, h2 hu ho]
  obtain ⟨h3, h4, h5, h6⟩ := hrest hu ho
  by_cases hd : natAt p 0 2 ∈ s.ids
  · simp [hbad, hu, ho, hd, h3 hd]
  by_cases hm : s.afterMissing p
  · simp [hbad, hu, ho, hd, hm, h4 hd hm]
  by_cases hf : 64 ≤ s.seq.queue.length
  · simp [hbad, hu, ho, hd, hm, hf, h5 hd hm hf]
  · simp [hbad, hu, ho, hd, hm, hf, h6 hd hm hf]

theorem State.SubmitTargetAnswers_iff_of_bad {s : State} {p : List Byte} {status : Status}
    (hbad : s.submitTargetBad p) : s.SubmitTargetAnswers p status ↔ status = .badParam := by
  simp [State.SubmitTargetAnswers, hbad]

/-! ## The body of Submit Target (R10, R11) -/

theorem submitTargetBody_bad {s : State} {p : List Byte} (hbad : s.submitTargetBad p) :
    submitTargetBody p s = (s, { status := .badParam, result := [] }) := by
  unfold submitTargetBody
  rcases (s.submitTargetBad_iff p).mp hbad with h | h
  · rw [if_pos h]
    rfl
  · rw [(recordOf_eq p .normal s.time.valid s.time.mount).1 h]
    split <;> rfl

theorem submitTargetBody_good {s : State} {p : List Byte} (hbad : ¬ s.submitTargetBad p) :
    submitTargetBody p s =
      match s.submitRefusal (submittedRecord p .normal) (afterIdOf p) with
      | some st => refuse s st
      | none =>
        let t := s.admitRecord (submittedRecord p .normal) (afterIdOf p)
        accept (t.retestIfHeadChanged s)
          (natBytes 1 (positionOf (natAt p 0 2) (t.seq.queue.map (·.targetId))) ++
            natBytes 1 t.seq.queue.length) := by
  rw [State.submitTargetBad_iff, not_or] at hbad
  unfold submitTargetBody
  rw [if_neg hbad.1, (recordOf_eq p .normal s.time.valid s.time.mount).2 hbad.2]
  rfl

theorem State.testActivation_site (s : State) : s.testActivation.site = s.site :=
  (activationTest_spec _ _ _ _).1.site

theorem State.retestIfHeadChanged_site (s u : State) : (s.retestIfHeadChanged u).site = s.site := by
  unfold State.retestIfHeadChanged
  split
  · rfl
  · exact State.testActivation_site s

/-- What the body answers, what a refusal leaves, and that it answers in the Site Port only. -/
theorem submitTargetBody_spec (p : List Byte) (s : State) :
    s.SubmitTargetAnswers p (submitTargetBody p s).2.status ∧
      ((submitTargetBody p s).2.status ≠ .ok →
        (submitTargetBody p s).2.result = [] ∧ (submitTargetBody p s).1 = s) ∧
      (submitTargetBody p s).1.site = s.site := by
  by_cases hbad : s.submitTargetBad p
  · rw [submitTargetBody_bad hbad, State.SubmitTargetAnswers_iff_of_bad hbad]
    exact ⟨rfl, fun _ => ⟨rfl, rfl⟩, rfl⟩
  · rw [submitTargetBody_good hbad, State.SubmitTargetAnswers_iff_of_good hbad]
    cases s.submitRefusal (submittedRecord p .normal) (afterIdOf p) with
    | some st => exact ⟨rfl, fun _ => ⟨rfl, rfl⟩, rfl⟩
    | none => exact ⟨rfl, fun h => absurd rfl h, State.retestIfHeadChanged_site _ _⟩

/-- Settles O18: the body decides by the checks in their order, and a refusal returns its state. -/
theorem submitTargetChecksInOrder : Obligations.SubmitTargetChecksInOrder := by
  intro s r rest p h
  obtain ⟨b, hb⟩ : ∃ b, submitTargetBody p { s with site.requests := rest } = b := ⟨_, rfl⟩
  obtain ⟨hanswer, hrefused, hsite⟩ := submitTargetBody_spec p { s with site.requests := rest }
  rw [hb] at hanswer hrefused hsite
  refine ⟨_, b.2, exec_answers_body h rfl rfl hb (by rw [hsite]), ?_, hanswer, fun hne => ?_⟩
  · simp only [State.answered, hsite]
  · obtain ⟨hresult, hstate⟩ := hrefused hne
    rw [hstate]
    exact ⟨hresult, rfl⟩

/-! ## The record placed (R11) -/

/-- A record placed in a queue that is not empty does not become its head. -/
theorem headId_placeRecord {q : List TargetRecord} (hq : q ≠ []) (after : Option Nat) (r : TargetRecord) :
    headId (placeRecord q after r) = headId q := by
  obtain ⟨a, l, rfl⟩ := List.exists_cons_of_ne_nil hq
  cases after with
  | none => rfl
  | some id =>
    show headId (if a.targetId = id then a :: r :: l else a :: insertBehind id r l) = a.targetId
    split <;> rfl

/-- A record admitted behind another one, or outside IDLE, is followed by no activation test (R7, R51). -/
theorem State.admitRecord_retest {s : State} {r : TargetRecord} {after : Option Nat}
    (h : s.seq.queue ≠ [] ∨ s.seq.motion ≠ .idle) :
    (s.admitRecord r after).retestIfHeadChanged s = s.admitRecord r after := by
  rcases h with h | h
  · exact if_pos (headId_placeRecord h after r)
  · exact State.retestIfHeadChanged_silent (.inl h)

/-- No check refuses with OK. -/
theorem State.submitRefusal_ne_ok (s : State) (r : TargetRecord) (after : Option Nat) :
    s.submitRefusal r after ≠ some .ok := by
  have hfixed : s.fixedRefusal r ≠ some .ok := by
    unfold State.fixedRefusal
    split
    · exact nofun
    · exact nofun
    · split <;> exact nofun
  unfold State.submitRefusal
  split
  · rename_i h
    exact h ▸ hfixed
  · split
    · exact nofun
    · split
      · exact nofun
      · split <;> exact nofun

/-- A Submit Target that answers OK has failed no check (R10). -/
theorem State.SubmitTargetAnswers_ok {s : State} {p : List Byte} (h : s.SubmitTargetAnswers p .ok) :
    ¬ s.submitTargetBad p ∧
      s.submitRefusal (submittedRecord p .normal) (afterIdOf p) = none := by
  have hbad : ¬ s.submitTargetBad p := fun hbad => by
    cases (State.SubmitTargetAnswers_iff_of_bad hbad).mp h
  refine ⟨hbad, ?_⟩
  have hst := (State.SubmitTargetAnswers_iff_of_good hbad).mp h
  cases hr : s.submitRefusal (submittedRecord p .normal) (afterIdOf p) with
  | none => rfl
  | some st =>
    rw [hr] at hst
    exact absurd (hr.trans (congrArg some hst.symm)) (State.submitRefusal_ne_ok _ _ _)

/-- Settles O19: with no check failing, the record is placed, and its head or its motion state rules the
activation test out. -/
theorem submitTargetAdmitsRecord : Obligations.SubmitTargetAdmitsRecord := by
  intro s r rest p h hok hhead
  refine exec_answers h rfl rfl ?_
  obtain ⟨hbad, hrefusal⟩ := State.SubmitTargetAnswers_ok (s := { s with site.requests := rest }) hok
  rw [submitTargetBody_good hbad, hrefusal]
  dsimp only
  rw [State.admitRecord_retest (by exact hhead), State.admitRecord, State.setQueue_eq, afterIdOf_eq]
  rfl

/-- A state whose request at the head has been taken out of the buffer (R173). -/
abbrev State.taken (s : State) (rest : List Request) : State := { s with site.requests := rest }

/-! ## What the planned motions read (R91, R92) -/

/-- The reset state at a clock, with the tables of axes and limits and a counter of free values. -/
def State.planning (clock : TimeBase) (planner : SlewPlanner) (freeIndex : Nat) : State :=
  { State.reset with time := clock, planner, freeIndex }

/-- A stop profile reads the clock and the tables of axes and limits only. -/
theorem State.stopPlan_congr {s t : State} (hp : t.planner = s.planner) (ht : t.time = s.time)
    (o : Lanes Motion) : t.stopPlan o = s.stopPlan o := by
  have hreads : ∀ u : State, u.stopPlan o = (State.planning u.time u.planner 0).stopPlan o :=
    fun _ => rfl
  rw [hreads s, hreads t, hp, ht]

/-- A park slew reads the clock, the tables of axes and limits and the counter of free values only. -/
theorem State.parkPlan_congr {s t : State} (hp : t.planner = s.planner) (ht : t.time = s.time)
    (hf : t.freeIndex = s.freeIndex) (o : Lanes Motion) : t.parkPlan o = s.parkPlan o := by
  have hreads : ∀ u : State,
      u.parkPlan o = (State.planning u.time u.planner u.freeIndex).parkPlan o := fun _ => rfl
  rw [hreads s, hreads t, hp, ht, hf]

/-! ## A change of motion state from a state that measures nothing (R47) -/

theorem State.moved_motion (s : State) (m : MotionState) : (s.moved m).seq.motion = m := by
  unfold State.moved
  dsimp only
  split <;> rfl

/-- A change of motion state leaves the buffer's rest alone. -/
theorem State.moved_requests (s : State) (m : MotionState) (q : List Request) :
    (s.taken q).moved m = (s.moved m).taken q := by
  unfold State.moved
  dsimp only
  split <;> rfl

/-- A change of motion state with a mark of the Sequencer that it does not read. -/
theorem State.moved_parkPending (s : State) (m : MotionState) :
    (s.moved m).seq.parkPending = s.seq.parkPending := by
  unfold State.moved
  dsimp only
  split <;> rfl

theorem State.moved_outcomes (s : State) (m : MotionState) :
    (s.moved m).seq.outcomes = s.seq.outcomes := by
  unfold State.moved
  dsimp only
  split <;> rfl

/-! ## The park slew and the stop profile begun (R91, R92) -/

theorem State.startPark_eq (s t : State) (hp : t.planner = s.planner) (ht : t.time = s.time)
    (hf : t.freeIndex = s.freeIndex) (hspell : t.seq.motion = .degraded → t.seq.spell = none)
    (hsettle : t.seq.motion = .settling → t.servo.settle = none) (o : Lanes Motion) :
    t.startPark o = State.moved
      { t with
        planner.current := .park (s.parkPlan o)
        freeIndex := s.freeIndex + 3
        seq.parkPending := false } .parking := by
  rw [← State.parkPlan_congr hp ht hf, ← hf]
  exact State.enter_moved (by decide) hspell hsettle

theorem State.startStop_eq (s t : State) (hp : t.planner = s.planner) (ht : t.time = s.time)
    (hspell : t.seq.motion = .degraded → t.seq.spell = none)
    (hsettle : t.seq.motion = .settling → t.servo.settle = none) (o : Lanes Motion) :
    t.startStop o = State.moved { t with planner.current := .stop (s.stopPlan o) } .stopping := by
  rw [← State.stopPlan_congr hp ht]
  exact State.enter_moved (by decide) hspell hsettle

/-! ## Stop and Park (R69, R70) -/

/-- The park slew planned from some motions, before PARKING is entered (R92). -/
def State.parkStarted (s : State) (o : Lanes Motion) : State :=
  { s with
    planner.current := .park (s.parkPlan o)
    freeIndex := s.freeIndex + 3
    seq.parkPending := false }

/-- The stop profile planned from some motions, before STOPPING is entered (R91). -/
def State.stopStarted (s : State) (o : Lanes Motion) : State :=
  { s with planner.current := .stop (s.stopPlan o) }

theorem State.parkStarted_taken (s : State) (q : List Request) :
    (s.taken q).parkStarted (s.taken q).holdMotion = (s.parkStarted s.holdMotion).taken q := by
  have hpark : (s.taken q).parkPlan (s.taken q).holdMotion = s.parkPlan s.holdMotion := rfl
  unfold State.parkStarted
  rw [hpark]

theorem State.stopStarted_taken (s : State) (q : List Request) :
    (s.taken q).stopStarted (s.taken q).present = (s.stopStarted s.present).taken q := by
  have hstop : (s.taken q).stopPlan (s.taken q).present = s.stopPlan s.present := rfl
  unfold State.stopStarted
  rw [hstop]

/-- A run that Stop or Park ends, before its stop profile: the active target gone, the shelf left, the queue
held and a grace count cancelled (R69, R70, R76). -/
def State.runLeft (s : State) (a : Running) (why : Reason) : State :=
  { (s.vacated a .withdrawn why none).shelfLeft why with
    seq.mode := .hold
    seq.sup.graceCount := none }

/-- A run that Stop or Park ends, before STOPPING is entered. -/
def State.halting (s : State) (a : Running) (why : Reason) : State :=
  { s.runLeft a why with planner.current := .stop (s.stopPlan s.present) }

theorem State.haltRun_eq {s : State} {a : Running} (h : s.seq.active = some a) (why : Reason) :
    s.haltRun why = (s.halting a why).moved .stopping := by
  unfold State.haltRun
  rw [State.departActive_eq _ _ _ h, State.abandonShelf_eq]
  exact State.startStop_eq s (s.runLeft a why) rfl rfl (fun _ => rfl) (fun _ => rfl) _

theorem State.halting_taken (s : State) (a : Running) (why : Reason) (q : List Request) :
    (s.taken q).halting a why = (s.halting a why).taken q := by
  have hstop : (s.taken q).stopPlan (s.taken q).present = s.stopPlan s.present := rfl
  unfold State.halting
  rw [hstop]
  rfl

/-- A halted run keeps park pending as it was. -/
theorem State.halting_parkPending (s : State) (a : Running) (why : Reason) :
    { (s.halting a why).moved .stopping with seq.parkPending := s.seq.parkPending } =
      (s.halting a why).moved .stopping := by
  have h : s.seq.parkPending = ((s.halting a why).moved .stopping).seq.parkPending :=
    (State.moved_parkPending (s.halting a why) _).symm
  rw [h]

/-- At rest in IDLE the mount is commanded to its hold position (R84). -/
theorem State.present_of_idle {s : State} (h : s.seq.motion = .idle) : s.present = s.holdMotion := by
  simp only [State.present, State.holdMotion, h]

theorem State.parkNow_running {s : State} {a : Running} (ha : s.seq.active = some a)
    (h : s.seq.motion.running = true) :
    s.parkNow = { (s.halting a .park).moved .stopping with seq.parkPending := true } := by
  rw [← State.haltRun_eq ha, State.parkNow]
  cases hm : s.seq.motion <;> simp only [hm, MotionState.running] at h ⊢ <;> cases h

theorem State.stopNow_running {s : State} {a : Running} (ha : s.seq.active = some a)
    (h : s.seq.motion.running = true) : s.stopNow = (s.halting a .stop).moved .stopping := by
  rw [← State.haltRun_eq ha, State.stopNow]
  cases hm : s.seq.motion <;> simp only [hm, MotionState.running] at h ⊢ <;> cases h

theorem State.parkNow_of_idle {s : State} (h : s.seq.motion = .idle) :
    s.parkNow = (s.parkStarted s.holdMotion).moved .parking := by
  have hnow : s.parkNow = s.startPark s.present := by
    simp only [State.parkNow, h]
  rw [hnow, State.present_of_idle h]
  exact State.startPark_eq s s rfl rfl rfl
    (fun k => nomatch h.symm.trans k) (fun k => nomatch h.symm.trans k) _

theorem State.parkNow_of_stopping {s : State} (h : s.seq.motion = .stopping) :
    s.parkNow = { s with seq.parkPending := true } := by
  simp only [State.parkNow, h]

theorem State.parkNow_of_rest {s : State} (h : s.seq.motion = .parking ∨ s.seq.motion = .parked) :
    s.parkNow = s := by
  rcases h with h | h <;> simp only [State.parkNow, h]

theorem State.stopNow_of_parking {s : State} (h : s.seq.motion = .parking) :
    s.stopNow = State.moved { s.stopStarted s.present with seq.parkPending := false } .stopping := by
  have hnow : s.stopNow = State.startStop { s with seq.parkPending := false } s.present := by
    simp only [State.stopNow, h]
  exact hnow.trans (State.startStop_eq s { s with seq.parkPending := false } rfl rfl
    (fun k => nomatch h.symm.trans k) (fun k => nomatch h.symm.trans k) _)

theorem State.stopNow_of_rest {s : State} (h : s.seq.motion = .idle ∨ s.seq.motion = .stopping) :
    s.stopNow = s := by
  rcases h with h | h <;> simp only [State.stopNow, h]

theorem parkBody_of_ne_alarm {s : State} (h : s.seq.motion ≠ .alarm) :
    parkBody [] s = (s.parkNow, okReply [motionCode s.parkNow.seq.motion]) := by
  unfold parkBody
  rw [if_neg (by simp), if_neg h]
  rfl

theorem parkBody_of_alarm {s : State} (h : s.seq.motion = .alarm) :
    parkBody [] s = (s, { status := .wrongState, result := [] }) := by
  unfold parkBody
  rw [if_neg (by simp), if_pos h]
  rfl

theorem stopBody_of_rest {s : State} (h : s.seq.motion = .parked ∨ s.seq.motion = .alarm) :
    stopBody [] s = (s, { status := .wrongState, result := [] }) := by
  unfold stopBody
  rw [if_neg (by simp), if_pos h]
  rfl

theorem stopBody_of_ne_rest {s : State} (h : s.seq.motion ≠ .parked) (k : s.seq.motion ≠ .alarm) :
    stopBody [] s = (s.stopNow, okReply [motionCode s.stopNow.seq.motion]) := by
  unfold stopBody
  rw [if_neg (by simp), if_neg (by simp [h, k])]
  rfl

section

variable {s : State} {r : Request} {rest : List Request}

/-- A Park that is taken leaves what `State.parkNow` makes of the state and answers its motion state. -/
theorem exec_park {u : State} {m : MotionState} (h : s.asks r rest 0x19 []) (hm : s.seq.motion ≠ .alarm)
    (hu : (s.taken rest).parkNow = u.taken rest)
    (hc : u.seq.motion = m) :
    exec .park s = .next (u.answered r rest 0x19 (okReply [motionCode m])) := by
  subst hc
  exact exec_answers h rfl rfl ((parkBody_of_ne_alarm (s := s.taken rest) hm).trans (by rw [hu]))

/-- A Stop that is taken leaves what `State.stopNow` makes of the state and answers its motion state. -/
theorem exec_stop {u : State} {m : MotionState} (h : s.asks r rest 0x1A []) (hp : s.seq.motion ≠ .parked)
    (hm : s.seq.motion ≠ .alarm)
    (hu : (s.taken rest).stopNow = u.taken rest)
    (hc : u.seq.motion = m) :
    exec .stop s = .next (u.answered r rest 0x1A (okReply [motionCode m])) := by
  subst hc
  exact exec_answers h rfl rfl ((stopBody_of_ne_rest (s := s.taken rest) hp hm).trans (by rw [hu]))

end

/-- Settles O31: each row of the two rules' tables is the branch that `State.parkNow` or `State.stopNow`
takes there. -/
theorem stopAndParkByState : Obligations.StopAndParkByState := by
  intro s r rest park h
  have hne : ∀ {m n : MotionState}, s.seq.motion = m → m ≠ n → s.seq.motion ≠ n := fun h k => h ▸ k
  refine ⟨fun a ha hr => ⟨?_, State.moved_outcomes (s.halting a _) _⟩, ?_, ?_, ?_, ?_, ?_, ?_, ?_, ?_⟩
  case refine_1 =>
    have hparked : s.seq.motion ≠ .parked := fun k => by rw [k] at hr; cases hr
    have halarm : s.seq.motion ≠ .alarm := fun k => by rw [k] at hr; cases hr
    cases park with
    | true =>
      refine exec_park (u := { (s.halting a .park).moved .stopping with seq.parkPending := true }) h halarm
        ?_ (State.moved_motion (s.halting a .park) .stopping)
      rw [State.parkNow_running (s := s.taken rest) ha hr, State.halting_taken, State.moved_requests]
    | false =>
      refine exec_stop (u := { (s.halting a .stop).moved .stopping with
          seq.parkPending := false || s.seq.parkPending }) h hparked halarm ?_
        (State.moved_motion (s.halting a .stop) .stopping)
      rw [State.stopNow_running (s := s.taken rest) ha hr, State.halting_taken, State.moved_requests]
      exact congrArg (State.taken · rest)
        (State.halting_parkPending s a .stop).symm
  · rintro rfl hm
    refine exec_park h (hne hm (by decide)) ?_ (State.moved_motion _ _)
    rw [State.parkNow_of_idle (s := s.taken rest) hm, State.parkStarted_taken]
    exact State.moved_requests (s.parkStarted s.holdMotion) _ rest
  · rintro rfl hm
    exact exec_park (u := { s with seq.parkPending := true }) h (hne hm (by decide))
      (State.parkNow_of_stopping (s := s.taken rest) hm) hm
  · rintro rfl hm
    exact exec_park (u := s) h (hne hm (by decide)) (State.parkNow_of_rest (s := s.taken rest) (.inl hm)) hm
  · rintro rfl hm
    exact exec_park (u := s) h (hne hm (by decide)) (State.parkNow_of_rest (s := s.taken rest) (.inr hm)) hm
  · rintro rfl hm
    refine exec_stop h (hne hm (by decide)) (hne hm (by decide)) ?_ (State.moved_motion _ _)
    rw [State.stopNow_of_parking (s := s.taken rest) hm, State.stopStarted_taken]
    exact State.moved_requests { s.stopStarted s.present with seq.parkPending := false } _ rest
  · rintro rfl hm
    exact exec_stop (u := s) h (hne hm (by decide)) (hne hm (by decide))
      (State.stopNow_of_rest (s := s.taken rest) (.inl hm)) hm
  · rintro rfl hm
    exact exec_stop (u := s) h (hne hm (by decide)) (hne hm (by decide))
      (State.stopNow_of_rest (s := s.taken rest) (.inr hm)) hm
  · intro hm
    cases park with
    | true =>
      have halarm : s.seq.motion = .alarm := hm.resolve_right (fun k => nomatch k.1)
      exact exec_answers (u := s) h rfl rfl (parkBody_of_alarm halarm)
    | false => exact exec_answers (u := s) h rfl rfl (stopBody_of_rest (hm.symm.imp_left (·.2)))

/-! ## What the end-of-target rule keeps of the queue mode, the supervision and the reports -/

theorem offerReport_prefix (u : ReportUnit) (d : ReportDetail) (t i : Nat) :
    u.queue <+: (offerReport u d t i).queue := by
  unfold offerReport
  split
  · exact List.prefix_append _ _
  · exact List.prefix_rfl

/-- `t` follows from `s` with the queue mode and the supervision as they were and no report taken back. -/
structure State.Proceeds (s t : State) : Prop where
  mode : t.seq.mode = s.seq.mode
  sup : t.seq.sup = s.seq.sup
  rep : s.rep.queue <+: t.rep.queue

theorem State.Proceeds.refl (s : State) : s.Proceeds s := ⟨rfl, rfl, List.prefix_rfl⟩

theorem State.Proceeds.of_eq {s t : State} (mode : t.seq.mode = s.seq.mode := by rfl)
    (sup : t.seq.sup = s.seq.sup := by rfl) (rep : t.rep = s.rep := by rfl) : s.Proceeds t :=
  ⟨mode, sup, by rw [rep]⟩

theorem State.Proceeds.trans {s t u : State} (h : s.Proceeds t) (k : t.Proceeds u) : s.Proceeds u :=
  ⟨k.mode.trans h.mode, k.sup.trans h.sup, h.rep.trans k.rep⟩

theorem outcomeReports_prefix (es : List OutcomeEntry) (u : ReportUnit) :
    u.queue <+: (es.foldl (fun u e =>
      offerReport u (.targetOutcome e.verdict e.reason e.axis e.place) e.time e.record.targetId)
      u).queue := by
  induction es generalizing u with
  | nil => exact List.prefix_rfl
  | cons e es ih => exact (offerReport_prefix _ _ _ _).trans (ih _)

theorem State.departed_proceeds (s : State) (es : List OutcomeEntry) : s.Proceeds (s.departed es) :=
  ⟨rfl, rfl, outcomeReports_prefix _ _⟩

theorem State.departQueued_proceeds (s : State) (r : TargetRecord) (v : Verdict) (why : Reason) :
    s.Proceeds (s.departQueued r v why) :=
  ⟨rfl, rfl, offerReport_prefix _ _ _ _⟩

theorem State.depart_proceeds (s : State) (r : TargetRecord) (v : Verdict) (why : Reason)
    (x : Option Lane) (p : Place) : s.Proceeds (s.depart r v why x p) :=
  ⟨rfl, rfl, offerReport_prefix _ _ _ _⟩

theorem State.enter_proceeds (s : State) {m : MotionState} (hm : m ∈ [.slewing, .stopping, .parking]) :
    s.Proceeds (s.enter m) := by
  obtain ⟨f, spell, settle, -, hl, -⟩ := State.leaveMotion_eq s
  have hleft : s.Proceeds s.leaveMotion := by
    rw [hl]
    exact ⟨rfl, rfl, List.prefix_rfl⟩
  have hreport : s.Proceeds (State.report { s.leaveMotion with seq.motion := m }
      (.phaseChange s.seq.motion m) ({ s.leaveMotion with seq.motion := m } : State).activeId) :=
    hleft.trans ⟨rfl, rfl, offerReport_prefix _ _ _ _⟩
  have hcommit : ∀ t : State, t.Proceeds t.deferredCommit := by
    intro t
    unfold State.deferredCommit
    split
    · exact ⟨rfl, rfl, offerReport_prefix _ _ _ _⟩
    · exact .refl t
  simp only [List.mem_cons, List.not_mem_nil, or_false] at hm
  rcases hm with rfl | rfl | rfl
  · exact hreport.trans (hcommit _)
  · exact hreport.trans (hcommit _)
  · exact hreport

theorem State.takeSlot_proceeds (s : State) (a : Running) (p : SlewPlan) :
    s.Proceeds (s.takeSlot a p) := by
  unfold State.takeSlot
  exact (State.Proceeds.of_eq).trans (State.enter_proceeds _ (m := .slewing) (by decide))

theorem State.starve_proceeds (s : State) (r : TargetRecord) (t : Nat) (c : Lanes Bool) :
    s.Proceeds (s.starve r t c) := by
  unfold State.starve
  split
  · exact .refl s
  · exact ⟨rfl, rfl, offerReport_prefix _ _ _ _⟩

theorem activationTest_proceeds (inRule : Bool) (o : Lanes Motion) :
    ∀ (n : Nat) (s : State), s.Proceeds (activationTest inRule o n s) := by
  intro n
  induction n with
  | zero => intro s; exact .refl s
  | succ n ih =>
    intro s
    unfold activationTest
    split
    · exact .refl s
    · rename_i r rest hq
      have h0 : s.Proceeds { s with chains := retireTarget s.chains r.targetId s.time.mount } :=
        ⟨rfl, rfl, List.prefix_rfl⟩
      split
      · dsimp only
        split
        · exact h0.trans (State.starve_proceeds _ _ _ _)
        · exact (h0.trans (State.departQueued_proceeds _ _ _ _)).trans (ih _)
        · split
          · exact (h0.trans .of_eq).trans (State.takeSlot_proceeds _ _ _)
          · exact h0.trans (State.starve_proceeds _ _ _ _)
      · exact .refl s

theorem restoreShelf_proceeds (o : Lanes Motion) :
    ∀ (n : Nat) (s : State), s.Proceeds (restoreShelf o n s) := by
  intro n
  induction n with
  | zero => intro s; exact .refl s
  | succ n ih =>
    intro s
    unfold restoreShelf
    split
    · exact .refl s
    · rename_i e rest hq
      dsimp only
      have h0 : s.Proceeds { s with
          seq.shelf := rest, chains := retireTarget s.chains e.record.targetId s.time.mount } :=
        ⟨rfl, rfl, List.prefix_rfl⟩
      have hfail := (h0.trans (State.depart_proceeds _ e.record .abandoned .noTrajectory none
        .shelved)).trans (ih _)
      split
      · split
        · exact h0.trans (State.takeSlot_proceeds _ _ _)
        · exact hfail
      · exact hfail
      · exact hfail

theorem State.abandonShelf_proceeds (s : State) (why : Reason) : s.Proceeds (s.abandonShelf why) := by
  rw [State.abandonShelf_eq]
  obtain ⟨hmode, hsup, hrep⟩ := s.departed_proceeds
    (leaving (s.seq.shelf.map (·.record)) .abandoned why .shelved s.time.mount)
  exact ⟨hmode, hsup, hrep⟩

theorem State.startPark_proceeds (s : State) (o : Lanes Motion) : s.Proceeds (s.startPark o) :=
  (State.Proceeds.of_eq).trans (State.enter_proceeds _ (m := .parking) (by decide))

theorem State.startStop_proceeds (s : State) (o : Lanes Motion) : s.Proceeds (s.startStop o) :=
  (State.Proceeds.of_eq).trans (State.enter_proceeds _ (m := .stopping) (by decide))

/-- The end-of-target rule cancels the grace count and keeps the rest (R64, R76). -/
theorem State.endRule_proceeds (s : State) (o : Lanes Motion) :
    State.Proceeds { s with seq.sup.graceCount := none } (s.endRule o) := by
  unfold State.endRule
  dsimp only
  split
  · exact (State.abandonShelf_proceeds _ _).trans (State.startPark_proceeds _ _)
  · have h1 := restoreShelf_proceeds o s.seq.shelf.length { s with seq.sup.graceCount := none }
    split
    · exact h1
    · have h2 := h1.trans (activationTest_proceeds true o
        (restoreShelf o s.seq.shelf.length { s with seq.sup.graceCount := none }).seq.queue.length _)
      split
      · exact h2
      · exact h2.trans (State.startStop_proceeds _ _)

/-! ## The slot taken by a target (R54, R65) -/

/-- No spell and no settle measurement is left from the last target. -/
def State.settled (s : State) : Prop := s.seq.spell = none ∧ s.servo.settle = none

theorem State.takeSlot_eq {s : State} (h : s.settled) (a : Running) (p : SlewPlan) :
    s.takeSlot a p = s.slotted a.record a.ctx p := by
  unfold State.takeSlot State.slotted
  exact State.enter_moved (by decide) (fun _ => h.1) (fun _ => h.2)

/-! ## The activation test of one head (R51 to R54) -/

/-- No head may be activated: the queue empty or held, no valid time, or the head's start not reached
(R51, steps 1 to 4). -/
def State.noHead (s : State) : Prop :=
  s.seq.queue = [] ∨ s.seq.mode = .hold ∨ s.time.valid = false ∨
    ∃ q qs, s.seq.queue = q :: qs ∧ startReached q s.time.mount = false

theorem activationTest_noHead {s : State} (h : s.noHead) (inRule : Bool) (o : Lanes Motion) (n : Nat) :
    activationTest inRule o n s = s := by
  refine activationTest_silent _ _ _ _ fun r rest hq => ?_
  rcases h with h | h | h | ⟨q, qs, hq', h⟩
  · cases h.symm.trans hq
  · simp [State.mayActivate, h]
  · simp [State.mayActivate, h]
  · cases hq.symm.trans hq'
    simp [State.mayActivate, h]

/-- In the end-of-target rule a head may be activated where nothing rules it out. -/
theorem State.mayActivate_inRule {s : State} (h : ¬ s.noHead) {q : TargetRecord} {qs : List TargetRecord}
    (hq : s.seq.queue = q :: qs) : s.mayActivate true q = true := by
  unfold State.noHead at h
  push Not at h
  obtain ⟨-, hmode, hvalid, hstart⟩ := h
  have hrun : s.seq.mode = .run := by
    cases hm : s.seq.mode with
    | hold => exact absurd hm hmode
    | run => rfl
  simp [State.mayActivate, hrun, eq_true_of_ne_false hvalid, eq_true_of_ne_false (hstart q qs hq)]

/-- A head that may be activated, and whose plan its chains cover, takes the slot (R52, R54). -/
theorem activationTest_takes {s : State} {inRule : Bool} {o : Lanes Motion} {q : TargetRecord}
    {qs : List TargetRecord} {p : SlewPlan} (n : Nat) (hq : s.seq.queue = q :: qs)
    (hmay : s.mayActivate inRule q = true)
    (hplan : State.chooseWrapFor { s with chains := retireTarget s.chains q.targetId s.time.mount } o q
      (.fresh q.dwell s.time.mount 0) = .plan p)
    (hcover : targetCovers (retireTarget s.chains q.targetId s.time.mount) q p.arrival
      (p.arrival + s.cover) = true) :
    activationTest inRule o (n + 1) s =
      (State.setQueue { s with chains := retireTarget s.chains q.targetId s.time.mount } qs).activate
        q p := by
  unfold activationTest
  rw [hq]
  dsimp only
  rw [if_pos hmay, hplan]
  exact if_pos hcover

/-! ## A restore from the shelf (R65) -/

/-- The top of the shelf taken off, its ended segments retired (R40, R65). -/
def State.popped (s : State) (e : Running) (rest : List Running) : State :=
  { s with
    seq.shelf := rest
    chains := retireTarget s.chains e.record.targetId s.time.mount }

theorem restoreShelf_nil {s : State} (h : s.seq.shelf = []) (o : Lanes Motion) (n : Nat) :
    restoreShelf o n s = s := by
  cases n with
  | zero => rfl
  | succ n =>
    unfold restoreShelf
    rw [h]

section

variable {s : State} {o : Lanes Motion} {e : Running} {rest : List Running}

/-- A top of the shelf that is planned and covered takes the slot. -/
theorem restoreShelf_takes {p : SlewPlan} (n : Nat) (h : s.seq.shelf = e :: rest)
    (hplan : (s.popped e rest).chooseWrapFor o e.record e.ctx = .plan p)
    (hcover : targetCoversTime (s.popped e rest).chains e.record p.arrival = true) :
    restoreShelf o (n + 1) s =
      (s.popped e rest).takeSlot { e with ctx := e.ctx.back s.time.mount } p := by
  unfold State.popped at hplan hcover ⊢
  unfold restoreShelf
  rw [h]
  dsimp only
  rw [hplan]
  exact if_pos hcover

/-- A top of the shelf that is not planned or not covered leaves, and the next one is tried. -/
theorem restoreShelf_fails (n : Nat) (h : s.seq.shelf = e :: rest)
    (hfail : ∀ p, (s.popped e rest).chooseWrapFor o e.record e.ctx = .plan p →
      targetCoversTime (s.popped e rest).chains e.record p.arrival = false) :
    restoreShelf o (n + 1) s = restoreShelf o n ((s.popped e rest).departed
      (leaving [e.record] .abandoned .noTrajectory .shelved s.time.mount)) := by
  have hdepart : (s.popped e rest).depart e.record .abandoned .noTrajectory none .shelved =
      (s.popped e rest).departed (leaving [e.record] .abandoned .noTrajectory .shelved s.time.mount) :=
    State.depart_eq _ _ _ _ _ _
  rw [← hdepart]
  unfold State.popped at hfail ⊢
  conv_lhs => unfold restoreShelf
  rw [h]
  dsimp only
  split
  · rename_i p hp
    exact if_neg (ne_true_of_eq_false (hfail p hp))
  · rfl
  · rfl

end

/-! ## The end-of-target rule (R64) -/

section

variable {s r : State} {o : Lanes Motion}

theorem State.endRule_park (hs : s.settled) (hgrace : s.seq.sup.graceCount = none)
    (hp : s.seq.parkPending = true) :
    s.endRule o = State.moved
      { s.shelfLeft .lapse with
        planner.current := .park (s.parkPlan o)
        seq.parkPending := false
        freeIndex := s.freeIndex + 3 } .parking := by
  have hs0 : { s with seq.sup.graceCount := none } = s := by rw [← hgrace]
  unfold State.endRule
  rw [hs0]
  dsimp only
  rw [if_pos hp, State.abandonShelf_eq]
  exact State.startPark_eq s (s.shelfLeft .lapse) rfl rfl rfl (fun _ => hs.1) (fun _ => hs.2) o

/-- Without park pending, the rule restores from the shelf, and with the slot still empty goes on to the
activation test and the stop profile. -/
theorem State.endRule_restores (hgrace : s.seq.sup.graceCount = none)
    (hp : s.seq.parkPending = false) (hr : restoreShelf o s.seq.shelf.length s = r) :
    (r.seq.active.isSome = true → s.endRule o = r) ∧
      (∀ t, r.seq.active = none → activationTest true o r.seq.queue.length r = t →
        t.seq.active.isSome = true → s.endRule o = t) ∧
      (r.seq.active = none → r.noHead → s.endRule o = r.startStop o) := by
  have hs0 : { s with seq.sup.graceCount := none } = s := by rw [← hgrace]
  unfold State.endRule
  rw [hs0]
  dsimp only
  rw [if_neg (by rw [hp]; decide), hr]
  refine ⟨fun ha => if_pos ha, fun t ha ht hta => ?_, fun ha hn => ?_⟩
  · rw [if_neg (by rw [ha]; decide), ht, if_pos hta]
  · rw [if_neg (by rw [ha]; decide), activationTest_noHead hn, if_neg (by rw [ha]; decide)]

end

/-! ## The end of the active target (R20, R64) -/

/-- The slot after the active target has left, with the grace count cancelled: where the end-of-target rule
starts (R20, R64, R76). -/
def State.emptied (s : State) (a : Running) (v : Verdict) (why : Reason) : State :=
  { s.vacated a v why none with seq.sup.graceCount := none }

theorem State.emptied_settled (s : State) (a : Running) (v : Verdict) (why : Reason) :
    (s.emptied a v why).settled := ⟨rfl, rfl⟩

theorem State.endActiveFrom_eq {s : State} {a : Running} (h : s.seq.active = some a) (o : Lanes Motion)
    (v : Verdict) (why : Reason) : s.endActiveFrom o v why = (s.emptied a v why).endRule o := by
  rw [State.endActiveFrom, State.departActive_eq _ _ _ h]
  rfl

/-- After the end-of-target rule no chain of the departed target is left (R45). -/
theorem State.endRule_owners (s : State) (a : Running) (v : Verdict) (why : Reason) (o : Lanes Motion) :
    ∀ c ∈ ((s.emptied a v why).endRule o).chains, c.owner ≠ a.record.targetId := by
  intro c hc
  obtain ⟨d, hd, hkey, -⟩ := (State.endRule_follows (s.emptied a v why) o).chains c hc
  have hd' := of_decide_eq_true (List.mem_filter.mp hd).2
  rw [← show d.owner = c.owner from (Prod.mk.inj hkey).1]
  simpa [State.leavingRecord] using hd'

/-- The active target has left and the end-of-target rule has run (R20, R64). -/
theorem State.endActiveFrom_ended {s : State} {a : Running} (h : s.seq.active = some a)
    (o : Lanes Motion) (v : Verdict) (why : Reason) :
    s.endedFrom (s.endActiveFrom o v why) o a v why := by
  have heq := State.endActiveFrom_eq h o v why
  have hset := s.emptied_settled a v why
  have hagree := (State.endActiveFrom_spec s o v why).1
  have hends := (State.endActiveFrom_spec s o v why).2
  have hproc := State.endRule_proceeds (s.emptied a v why) o
  have howners := s.endRule_owners a v why o
  rw [← heq] at hproc howners
  refine ⟨fun hp => ?_, fun hp => ⟨fun hshelf hn => ?_, fun hshelf hn q qs hq => ?_, fun e rest hshelf => ?_⟩,
    hproc.rep, howners, ?_, ?_, hproc.sup, hagree.time, hagree.cond, hagree.ports, hagree.guide,
    hagree.site, hproc.mode, hagree.hold, hagree.latest, hagree.watch, hagree.permit, hagree.pending⟩
  · rw [heq]
    exact State.endRule_park hset rfl hp
  · obtain ⟨-, -, hstop⟩ := State.endRule_restores (s := s.emptied a v why) (o := o) rfl hp
      (restoreShelf_nil (s := s.emptied a v why) hshelf o _)
    rw [heq, hstop rfl hn]
    exact State.startStop_eq s (s.emptied a v why) rfl rfl (fun _ => hset.1) (fun _ => hset.2) o
  · intro u p hplan hcover
    have htake := activationTest_takes qs.length (s := s.emptied a v why) hq
      (State.mayActivate_inRule hn hq) hplan hcover
    obtain ⟨-, hhead, -⟩ := State.endRule_restores (s := s.emptied a v why) (o := o) rfl hp
      (restoreShelf_nil (s := s.emptied a v why) hshelf o _)
    rw [heq, hhead _ rfl (by rw [show (s.emptied a v why).seq.queue = q :: qs from hq]; exact htake)
      (State.takeSlot_slews _ _ _).2.1, State.setQueue_eq]
    exact State.takeSlot_eq (by exact hset) _ p
  · have hlen : (s.emptied a v why).seq.shelf.length = rest.length + 1 :=
      congrArg List.length hshelf
    refine ⟨fun p hplan hcover => ?_, fun hfail hrest hn => ?_⟩
    · obtain ⟨hslot, -, -⟩ := State.endRule_restores (s := s.emptied a v why) (o := o) rfl hp
        ((congrArg (restoreShelf o · _) hlen).trans
          (restoreShelf_takes rest.length (s := s.emptied a v why) hshelf hplan hcover))
      rw [heq, hslot (State.takeSlot_slews _ _ _).2.1]
      exact State.takeSlot_eq (by exact hset) _ p
    · subst hrest
      obtain ⟨-, -, hstop⟩ := State.endRule_restores (s := s.emptied a v why) (o := o) rfl hp
        ((congrArg (restoreShelf o · _) hlen).trans
          (restoreShelf_fails 0 (s := s.emptied a v why) hshelf hfail))
      rw [heq, hstop rfl hn]
      exact State.startStop_eq s (((s.emptied a v why).popped e []).departed
        (leaving [e.record] .abandoned .noTrajectory .shelved s.time.mount)) rfl rfl (fun _ => hset.1)
        (fun _ => hset.2) o
  · rcases hends with h | h | h
    · exact .inl h.1
    · exact .inr (.inl h.1)
    · exact .inr (.inr h.1)
  · rcases hends with h | h | h
    · rw [h.1, h.2.1]; rfl
    · rw [h.1, h.2.1]; rfl
    · rw [h.1, h.2.1]; rfl

/-! ## Withdraw Target (R17) -/

theorem State.active?_of_active {s : State} {a : Running} {id : Nat} (h : s.seq.active = some a)
    (hid : a.record.targetId = id) : s.active? id = some a := by
  simp [State.active?, h, hid]

theorem State.shelved?_id {s : State} {e : Running} {id : Nat} (h : s.shelved? id = some e) :
    e.record.targetId = id := by
  unfold State.shelved? at h
  simpa using List.find?_some h

theorem State.queued?_id {s : State} {q : TargetRecord} {id : Nat} (h : s.queued? id = some q) :
    q.targetId = id := by
  unfold State.queued? at h
  simpa using List.find?_some h

theorem withdrawTargetBody_of_valid {p : List Byte} {s : State} (hl : p.length = 2)
    (hi : natAt p 0 2 ≠ 0) : withdrawTargetBody p s = s.withdraw (natAt p 0 2) := by
  simp [withdrawTargetBody, hl, hi]

section

variable {s : State} {id : Nat}

theorem State.withdraw_active {a : Running} (h : s.active? id = some a) :
    s.withdraw id = (s.endActive .withdrawn .request, okReply [1]) := by
  simp only [State.withdraw, h]
  rfl

/-- A shelved target withdrawn: it leaves the shelf, and its departure is the one of R20. -/
theorem State.withdraw_shelved {e : Running} (ha : s.active? id = none) (he : s.shelved? id = some e) :
    s.withdraw id =
      ({ s with
          seq.shelf := s.seq.shelf.filter (fun q => q.record.targetId != id)
          chains := s.chains.filter (fun c => c.owner != id)
          seq.outcomes := pushOutcome s.seq.outcomes
            { record := e.record, verdict := .withdrawn, reason := .request, axis := none
              time := s.time.mount, place := .shelved }
          rep := offerReport s.rep (.targetOutcome .withdrawn .request none .shelved) s.time.mount id },
        okReply [2]) := by
  have hid : e.record.targetId = id := State.shelved?_id he
  simp only [State.withdraw, ha, he]
  subst hid
  rfl

/-- A queued record withdrawn behind the head, or outside IDLE: it leaves the queue, and no activation test
follows (R17, R51). -/
theorem State.withdraw_queued {q : TargetRecord} (ha : s.active? id = none) (he : s.shelved? id = none)
    (hq : s.queued? id = some q) (hhead : headId s.seq.queue ≠ id ∨ s.seq.motion ≠ .idle) :
    s.withdraw id =
      ({ s.queued (s.seq.queue.filter (fun q => q.targetId != id)) with
          chains := s.chains.filter (fun c => c.owner != id)
          seq.outcomes := pushOutcome s.seq.outcomes
            { record := q, verdict := .withdrawn, reason := .request, axis := none
              time := s.time.mount, place := .queued }
          rep := offerReport s.rep (.targetOutcome .withdrawn .request none .queued) s.time.mount id },
        okReply [0]) := by
  have hid : q.targetId = id := State.queued?_id hq
  have hretest : (s.departQueued q .withdrawn .request).retestIfHeadChanged s =
      s.departQueued q .withdrawn .request := by
    rcases hhead with h | h
    · refine if_pos ?_
      rw [(State.departQueued_seq s q _ _).1, hid]
      cases hl : s.seq.queue with
      | nil => rfl
      | cons a l =>
        rw [hl] at h
        have ha : (a.targetId != id) = true := bne_iff_ne.mpr h
        rw [List.filter_cons, if_pos ha]
        rfl
    · exact State.retestIfHeadChanged_silent (.inl h)
  simp only [State.withdraw, ha, he, hq]
  rw [hretest, State.departQueued, State.setQueue_eq, hid, State.depart, hid]
  rfl

theorem State.withdraw_absent (h : s.present? id = false) :
    s.withdraw id = (s, { status := .notFound, result := [] }) := by
  obtain ⟨hq, ha, he⟩ := State.present?_eq_false h
  simp only [State.withdraw, ha, he, hq]
  rfl

end

/-- Settles O21: the place decides, and the active target's departure runs the end-of-target rule. -/
theorem withdrawTargetLeavesItsPlace : Obligations.WithdrawTargetLeavesItsPlace := by
  intro s r rest p h hl hi
  have hbody := withdrawTargetBody_of_valid (s := s.taken rest) hl hi
  refine ⟨fun a ha hid => ?_, fun e ha he => ?_, fun q ha he hq hhead => ?_, fun hp => ?_⟩
  · have hactive : (s.taken rest).active? (natAt p 0 2) = some a := State.active?_of_active ha hid
    refine ⟨(s.taken rest).endActive .withdrawn .request,
      exec_answers_body h rfl rfl (hbody.trans (State.withdraw_active hactive)) ?_,
      State.endActiveFrom_ended (s := s.taken rest) ha _ _ _⟩
    rw [(State.endActive_spec (s.taken rest) .withdrawn .request).1.site]
  · exact exec_answers h rfl rfl (hbody.trans (State.withdraw_shelved (s := s.taken rest) ha he))
  · exact exec_answers h rfl rfl
      (hbody.trans (State.withdraw_queued (s := s.taken rest) ha he hq hhead))
  · exact exec_answers h rfl rfl (hbody.trans (State.withdraw_absent (s := s.taken rest) hp))

/-! ## SHUTTER edges (R4, R148, R149, R163) -/

/-- A condition's flag set in the active context, exactly (R148). -/
theorem State.flagCondition_eq_flagged {s : State} {a : Running} (h : s.seq.active = some a)
    (c : Condition) (q : Byte) (n : Nat) : s.flagCondition c q n = s.flagged a c q n := by
  unfold State.flagCondition State.flagged
  rw [h]
  simp only [State.mapContext_eq, State.mapActive, h, Option.map_some, mark, marks]
  split <;> rfl

/-- The active target with an edge captured into its list (R4, R163). -/
def State.capturing (s : State) (e : ShutterEdge) (a : Running) : Running :=
  { a with record := a.record.addCapture (s.captureOf e a) }

theorem State.captureEdge_eq {s : State} {a : Running} (h : s.seq.active = some a) (e : ShutterEdge) :
    s.captureEdge e = { s with seq.active := some (s.capturing e a) } := by
  simp only [State.captureEdge, State.mapActive, h, Option.map_some, State.capturing]

theorem offTarget_iff (e : ShutterEdge) (m : MotionState) :
    offTarget e m = true ↔ e = .opening ∧ m ∈ [.slewing, .settling, .degraded] := by
  simp [offTarget, or_assoc]

section

variable {s : State} {a : Running} {e : ShutterEdge}

theorem exec_shutterEdge_captured (h : s.seq.active = some a)
    (hoff : ¬ (e = .opening ∧ s.seq.motion ∈ [.slewing, .settling, .degraded])) :
    exec (.shutterEdge e) s = .next { s with seq.active := some (s.capturing e a) } := by
  rw [← offTarget_iff] at hoff
  show execShutterEdge e s = _
  unfold execShutterEdge
  rw [h]
  dsimp only
  rw [if_neg hoff, State.captureEdge_eq h]

theorem exec_shutterEdge_raised (h : s.seq.active = some a)
    (hoff : e = .opening ∧ s.seq.motion ∈ [.slewing, .settling, .degraded]) :
    exec (.shutterEdge e) s = .next (State.raiseCondition
      { s with seq.active := some (s.capturing e a) } .shutterOffTarget 0xFF s.time.mount) := by
  rw [← offTarget_iff] at hoff
  show execShutterEdge e s = _
  unfold execShutterEdge
  rw [h]
  dsimp only
  rw [if_pos hoff, State.captureEdge_eq h]

/-- The captured edge with SHUTTER_OFF_TARGET flagged, as the statement writes it (R148, R149). -/
theorem State.capturing_flagged (s : State) (e : ShutterEdge) (a : Running) :
    State.flagged { s with seq.active := some (s.capturing e a) } (s.capturing e a) .shutterOffTarget
      0xFF s.time.mount = { s with
        seq.active := some { s.capturing e a with ctx.flags := a.ctx.flags ||| 0x40 }
        rep := if a.ctx.flags.getLsbD 6 then s.rep else
          offerReport s.rep (.conditionRaised .shutterOffTarget (s.cond.mask.getLsbD 6) 0xFF s.time.mount)
            s.time.mount a.record.targetId } := by
  have hid : (s.capturing e a).record.targetId = a.record.targetId := TargetRecord.addCapture_id _ _
  unfold State.flagged
  rw [hid]
  rfl

end

/-- Settles O55: the edge is captured, and off target its condition is flagged and, unmasked, taken as a
fault. -/
theorem shutterEdgesAreCaptured : Obligations.ShutterEdgesAreCaptured := by
  intro s e
  refine ⟨fun h => ?_, fun a h => ⟨fun hoff => exec_shutterEdge_captured h hoff, fun hoff hm => ?_,
    fun hoff hm => ?_⟩⟩
  · show execShutterEdge e s = _
    unfold execShutterEdge
    rw [h]
    rfl
  · rw [exec_shutterEdge_raised h hoff, State.raiseCondition_masked _ _ (.inl (by exact hm)),
      State.flagCondition_eq_flagged rfl, State.capturing_flagged]
    rfl
  · refine ⟨_, exec_shutterEdge_raised h hoff, ?_⟩
    rw [State.raiseCondition_unmasked _ _ (by exact hm) rfl, State.flagCondition_eq_flagged rfl,
      State.capturing_flagged]
    exact State.endActiveFrom_ended rfl _ _ _

/-! ## Submit Opportunity (R13, R14, R67) -/

/-- A wrap candidate does not read the Site Port (R86 to R88). -/
theorem State.candidate_taken (s : State) (q : List Request) (o : Lanes Motion) (r : TargetRecord)
    (c : Context) (k : Int) : (s.taken q).candidate o r c k = s.candidate o r c k := by
  have haxis : (s.taken q).axis = s.axis := rfl
  have htarget : (s.taken q).planTarget = s.planTarget := rfl
  have hpass : (s.taken q).passTimeTo = s.passTimeTo := rfl
  have hplan : (s.taken q).formPlan = s.formPlan := rfl
  have hslew : (s.taken q).slewTargets = s.slewTargets := rfl
  have hinstant : (s.taken q).instantPasses = s.instantPasses := rfl
  unfold State.candidate
  rw [haxis, htarget, hpass, hplan, hslew, hinstant]

theorem State.preemptPlan_taken (s : State) (q : List Request) (r : TargetRecord) :
    (s.taken q).preemptPlan r = s.preemptPlan r := by
  have hpresent : (s.taken q).present = s.present := rfl
  have hcover : (s.taken q).cover = s.cover := rfl
  unfold State.preemptPlan State.chooseWrapFor
  simp only [hpresent, hcover, State.candidate_taken]

section

variable {s : State} {p : List Byte} {seeds : List (Lane × Segment)}

/-- A Submit Opportunity that passes its checks goes by the motion state (R14). -/
theorem submitOpportunityBody_passed (hcount : natAt p 30 1 ≤ 3)
    (hlength : p.length = 31 + 29 * natAt p 30 1) (hpresence : natAt p 2 1 < 8)
    (hrecord : recordOf p .opportunity s.time.valid s.time.mount =
      some (submittedRecord p .opportunity))
    (hseeds : seedLanes (submittedRecord p .opportunity) (seedsOf p) = some seeds)
    (hfixed : s.fixedRefusal (submittedRecord p .opportunity) = none)
    (habsent : s.present? (natAt p 0 2) = false) (hrefusal : s.seedRefusal seeds = none) :
    submitOpportunityBody p s =
      if s.seq.motion.running then
        s.preempt (submittedRecord p .opportunity) (s.seededChains (submittedRecord p .opportunity) seeds)
      else s.queueFirst (submittedRecord p .opportunity)
        (s.seededChains (submittedRecord p .opportunity) seeds) := by
  have hvalid : ¬ (3 < natAt p 30 1 ∨ p.length ≠ 31 + 29 * natAt p 30 1 ∨ 8 ≤ natAt p 2 1) := by
    omega
  have habsent' : s.present? (submittedRecord p .opportunity).targetId = false := habsent
  unfold submitOpportunityBody
  rw [if_neg hvalid, hrecord]
  dsimp only
  rw [hseeds]
  dsimp only
  rw [hfixed]
  dsimp only
  rw [habsent', hrefusal]
  rfl

/-- Outside the running states, where no activation test follows, the record becomes the head (R14). -/
theorem State.queueFirst_eq {r : TargetRecord} {cs : List Chain} (hroom : s.seq.queue.length < 64)
    (hquiet : s.seq.motion ≠ .idle ∨ s.seq.mode = .hold) :
    s.queueFirst r cs =
      (State.queued { s with chains := s.chains ++ cs } (r :: s.seq.queue), okReply [0, 1]) := by
  have hroom' : ¬ Config.queueSize ≤ s.seq.queue.length := Nat.not_le.mpr hroom
  unfold State.queueFirst
  rw [if_neg hroom']
  dsimp only
  rw [State.retestIfHeadChanged_silent (by exact hquiet), State.setQueue_eq]
  rfl

/-! ### The preemption (R67) -/

/-- An opportunity's chains opened (R14). -/
def State.opened (s : State) (r : TargetRecord) (seeds : List (Lane × Segment)) : State :=
  { s with chains := s.chains ++ s.seededChains r seeds }

/-- A record at its activation, with its fresh context (R54). -/
def State.activating (s : State) (r : TargetRecord) (p : SlewPlan) : Running :=
  { record := { r with stats.activationTime := some s.time.mount }
    ctx := .fresh r.dwell s.time.mount p.wrapK }

/-- The running target on the shelf, its spell ended (R59, R67, R143). -/
def State.pushed (s : State) (a : Running) : State :=
  { s with
    seq.active := none
    seq.spell := none
    seq.shelf := { record := s.leavingRecord a
                   ctx := { a.ctx with guide := { a.ctx.guide with watch := none, lost := none } } } ::
      s.seq.shelf }

theorem State.pushActive_eq {a : Running} (h : s.seq.active = some a) : s.pushActive = s.pushed a := by
  unfold State.pushActive State.endSpell State.pushed State.leavingRecord
  cases hs : s.seq.spell with
  | none => simp [h, hs, Running.shelve]
  | some sp => simp [h, State.mapStats_eq, State.mapActive, Running.shelve]

theorem State.preempt_eq {r : TargetRecord} {cs : List Chain} {plan : SlewPlan} {a : Running}
    (hactive : s.seq.active = some a) (hroom : s.seq.shelf.length < 3) (hvalid : s.time.valid = true)
    (hstart : startReached r s.time.mount = true)
    (hplan : State.preemptPlan { s with chains := s.chains ++ cs } r = some plan) :
    s.preempt r cs =
      ((State.pushed { s with chains := s.chains ++ cs } a).activate r plan, okReply [1]) := by
  have hroom' : ¬ Config.shelfSize ≤ s.seq.shelf.length := Nat.not_le.mpr hroom
  unfold State.preempt
  rw [if_neg hroom', if_neg (by simp [hvalid, hstart])]
  dsimp only
  rw [hplan, State.pushActive_eq (by exact hactive)]
  rfl

/-- Leaving a motion state without a spell leaves the active target as it is (R59). -/
theorem State.leaveMotion_active (h : s.seq.spell = none) : s.leaveMotion.seq.active = s.seq.active := by
  unfold State.leaveMotion
  split
  · simp only [State.endSpell, h]
  all_goals rfl

theorem State.deferredCommit_active (s : State) : s.deferredCommit.seq.active = s.seq.active := by
  obtain ⟨rep, corr, h, -⟩ := State.deferredCommit_eq s
  rw [h]

theorem State.enter_slewing_active (h : s.seq.spell = none) :
    (s.enter .slewing).seq.active = s.seq.active :=
  (State.deferredCommit_active _).trans (State.leaveMotion_active h)

/-- What a slot taken leaves, and its plan (R54). -/
theorem State.takeSlot_lists (s : State) (a : Running) (p : SlewPlan) :
    (s.takeSlot a p).seq.queue = s.seq.queue ∧ (s.takeSlot a p).seq.shelf = s.seq.shelf ∧
      (s.takeSlot a p).seq.outcomes = s.seq.outcomes ∧ (s.takeSlot a p).chains = s.chains ∧
      (s.takeSlot a p).seq.mode = s.seq.mode ∧ (s.takeSlot a p).planner.current = .slew p := by
  simp only [State.takeSlot, State.enter_lists, State.enter_current, and_self]

/-- The slot after it has been taken, where no spell runs. -/
theorem State.takeSlot_active (h : s.seq.spell = none) (a : Running) (p : SlewPlan) :
    (s.takeSlot a p).seq.active = some
      { record := { a.record with
          stats.wrapK := some p.wrapK
          stats.wrapShort := a.record.stats.wrapShort || p.wrapShort }
        ctx := { a.ctx with wrapK := p.wrapK } } := by
  unfold State.takeSlot
  exact State.enter_slewing_active h

end

/-- Settles O20: outside the running states the record becomes the head; in one it takes the slot. -/
theorem submitOpportunityQueuesOrPreempts : Obligations.SubmitOpportunityQueuesOrPreempts := by
  intro s r rest p seeds h hcount hlength hpresence hrecord hseeds hfixed habsent hrefusal
  have hbody := submitOpportunityBody_passed (s := s.taken rest) hcount hlength hpresence hrecord hseeds
    hfixed habsent hrefusal
  refine ⟨fun hrun hroom hquiet => ?_, fun a plan hrun hactive hroom hvalid hstart hplan => ?_⟩
  · rw [if_neg (ne_true_of_eq_false hrun)] at hbody
    exact exec_answers h rfl rfl (hbody.trans (State.queueFirst_eq (s := s.taken rest) hroom hquiet))
  · rw [if_pos hrun] at hbody
    let record := submittedRecord p .opportunity
    let v : State := ((s.opened record seeds).taken rest).pushed a
    let b : Running := v.activating record plan
    have hplan' : ((s.opened record seeds).taken rest).preemptPlan record = some plan :=
      (State.preemptPlan_taken _ _ _).trans hplan
    have hpreempt := State.preempt_eq (s := s.taken rest) hactive hroom hvalid hstart hplan'
    have hagree := State.takeSlot_agrees v b plan
    obtain ⟨hqueue, hshelf, houtcomes, hchains, hmode, hcurrent⟩ := State.takeSlot_lists v b plan
    refine ⟨v.takeSlot b plan, exec_answers_body h rfl rfl (hbody.trans hpreempt) ?_, hagree.site,
      (State.takeSlot_slews v b plan).1, hcurrent, State.takeSlot_active rfl b plan, hshelf, hchains,
      hqueue, houtcomes, hmode, hagree.time, hagree.cond, hagree.ports⟩
    exact congrArg SitePort.requests hagree.site

/-! ## A frame on a line (R168, R169, R171) -/

theorem crcBytes_eq (c : BitVec 16) : crcBytes c = natBytes 2 c.toNat := by
  have hhigh : (c >>> 8).setWidth 8 = BitVec.ofNat 8 (c.toNat / 256 ^ 1) := by
    apply BitVec.eq_of_toNat_eq
    simp [Nat.shiftRight_eq_div_pow]
  have hlow : c.setWidth 8 = BitVec.ofNat 8 (c.toNat / 256 ^ 0) := by
    apply BitVec.eq_of_toNat_eq
    simp
  rw [crcBytes, hhigh, hlow]
  rfl

/-- A field that lies within the first bytes is read from them alone. -/
theorem natAt_append {q l : List Byte} {o w : Nat} (h : o + w ≤ q.length) :
    natAt (q ++ l) o w = natAt q o w := by
  have hfield : fieldAt (q ++ l) o w = fieldAt q o w := by
    unfold fieldAt
    rw [List.drop_append_of_le_length (by omega), List.take_append_of_le_length (by simp; omega)]
  unfold natAt
  rw [hfield]

/-- A receiver in FRAME takes the rest of a frame whose length field gives its length: it collects until
the last byte. -/
theorem rxRun_frame {total : List Byte} (hsize : natAt total 4 2 ≤ Config.payloadSize)
    (hlen : total.length = natAt total 4 2 + 8) :
    ∀ (more pre : List Byte), more ≠ [] → pre ++ more = total →
      rxRun (.frame pre 0) (more.map (fun b => .char (lineChar b))) =
        ((rxCollected total).1, (rxCollected total).2.toList) := by
  intro more
  induction more with
  | nil => exact fun pre h => absurd rfl h
  | cons b more ih =>
    intro pre _ htotal
    have hnext : rxNext (.frame pre 0) (.char (lineChar b)) = rxByte (.frame pre 0) b := by
      rw [rxNext, charByte_lineChar]
    have hsplit : pre ++ [b] ++ more = total := by simpa using htotal
    rw [List.map_cons, rxRun, hnext]
    cases more with
    | nil =>
      rw [List.append_nil] at hsplit
      show ((rxCollected (pre ++ [b])).1, (rxCollected (pre ++ [b])).2.toList ++ []) = _
      rw [hsplit, List.append_nil]
    | cons d more =>
      have hcollects := rxByte_collects pre 0 b (by
        by_cases h6 : (pre ++ [b]).length < 6
        · exact .inl h6
        · have hfield : natAt (pre ++ [b]) 4 2 = natAt total 4 2 := by
            rw [← hsplit]
            exact (natAt_append (by omega)).symm
          have hshort : (pre ++ [b]).length < total.length := by
            rw [← hsplit, List.length_append]
            simp
          exact .inr ⟨hfield ▸ hsize, by omega⟩)
      rw [hcollects]
      exact ih (pre ++ [b]) (List.cons_ne_nil _ _) hsplit

/-- What a receiver collects of a frame: everything behind its start byte (R171). -/
def frameBody (f : Frame) : List Byte := frameCovered f ++ crcBytes (crc16 (frameCovered f))

theorem frameBody_length (f : Frame) : (frameBody f).length = f.payload.length + 8 :=
  Nat.succ.inj (frameWire_length f)

theorem beNat_length {f : Frame} (h : f.payload.length ≤ Config.payloadSize) :
    beNat (natBytes 2 f.payload.length) = f.payload.length :=
  beNat_natBytes_of_lt (Nat.lt_of_le_of_lt h (by decide))

/-- The length field of a frame gives its payload's length. -/
theorem frameBody_lengthField {f : Frame} (h : f.payload.length ≤ Config.payloadSize) :
    natAt (frameBody f) 4 2 = f.payload.length := beNat_length h

/-- A frame reads back from its wire form (R169, R171). -/
theorem frameOfWire_frameBody {f : Frame} (h : f.payload.length ≤ Config.payloadSize) :
    frameOfWire (0xA5 :: frameBody f) = some f := by
  have hbody : frameBody f = f.dest :: f.src :: f.kind :: f.tag ::
      BitVec.ofNat 8 (f.payload.length / 256 ^ 1) :: BitVec.ofNat 8 (f.payload.length / 256 ^ 0) ::
        (f.payload ++ crcBytes (crc16 (frameCovered f))) := rfl
  have hfield : beNat [BitVec.ofNat 8 (f.payload.length / 256 ^ 1),
      BitVec.ofNat 8 (f.payload.length / 256 ^ 0)] = f.payload.length := beNat_length h
  rw [hbody, frameOfWire]
  rw [hfield, List.take_left, List.drop_left]
  exact if_pos ⟨rfl, h, by rw [List.length_append]; rfl, rfl⟩

/-- A hunting receiver takes a frame's characters to that frame and hunts again (R169). -/
theorem rxRun_frameLine {f : Frame} (h : f.payload.length ≤ Config.payloadSize) :
    rxRun .hunt (frameLine f) = (.hunt, [.received f]) := by
  have hfield := frameBody_lengthField h
  have hlen := frameBody_length f
  have hcollected : rxCollected (frameBody f) = (.hunt, some (.received f)) := by
    unfold rxCollected
    rw [hfield, hlen, if_neg (by omega), if_neg (by omega), if_neg (by omega), frameOfWire_frameBody h]
  have hne : frameBody f ≠ [] := List.ne_nil_of_length_pos (by omega)
  have hrun := rxRun_frame (hfield ▸ h) (hlen.trans (by rw [hfield])) (frameBody f) [] hne rfl
  have hstart : rxNext .hunt (.char (lineChar 0xA5)) = (.frame [] 0, none) := by
    rw [rxNext, charByte_lineChar]
    rfl
  have hline : frameLine f = .char (lineChar 0xA5) ::
      (frameBody f).map (fun b => .char (lineChar b)) := rfl
  rw [hline, rxRun, hstart, hrun, hcollected]
  rfl

/-- A frame at a hunting axis receiver is sorted, and the receiver hunts again. -/
theorem State.receiveLine_frame {s : State} {x : Lane} {f : Frame} (hrx : (s.ports.get x).rx = .hunt)
    (h : f.payload.length ≤ Config.payloadSize) :
    s.receiveLine (.axis x) (frameLine f) = s.sortAxis x f := by
  have hrun : rxRun (s.receiver (.axis x)) (frameLine f) = (.hunt, [.received f]) := by
    rw [show s.receiver (.axis x) = .hunt from hrx, rxRun_frameLine h]
  have hself : s.setReceiver (.axis x) .hunt = s := by
    rw [← show s.receiver (.axis x) = .hunt from hrx, State.setReceiver_self]
  rw [State.receiveLine_one (congrArg Prod.snd hrun), hrun, hself]
  rfl

/-! ## Alarms (R72, R131, R155) -/

theorem State.moved_alarm (s : State) : s.moved .alarm = { s with
    seq.motion := .alarm
    rep := offerReport s.rep (.phaseChange s.seq.motion .alarm) s.time.mount s.activeId } := by
  unfold State.moved
  exact if_neg fun h => absurd h.1 (by decide)

theorem State.raiseAlarm_joined {s : State} (h : s.seq.motion = .alarm) (k : AlarmKind)
    (x : Option Lane) : s.raiseAlarm k x = s.raised k x := by
  unfold State.raiseAlarm State.raised State.joined
  rw [if_pos h, if_pos h]
  rfl

/-- A first cause recorded with its report (R155). -/
def State.firstCause (s : State) (k : AlarmKind) (x : Option Lane) : State :=
  { s with
    cond.first := some { kind := k, axis := x, time := s.time.mount }
    cond.causeSet := [(k, x)]
    rep := offerReport s.rep (.alarmRaised k x true) s.time.mount s.activeId }

/-- A run ended by an alarm, before ALARM is entered: the shelf left, the queue held, nothing planned or
watched (R72, R76, R84, R116, R128). -/
def State.calmed (s : State) : State :=
  { s.shelfLeft .aborted with
    seq.mode := .hold
    seq.parkPending := false
    seq.sup.graceCount := none
    planner.current := .none
    servo.watch := .const none
    servo.latest := s.servo.latest.map (Option.map (fun l : LatestSample =>
      { l with seenSinceAlarm := false })) }

/-- The slot emptied by an alarm: the active target, where there is one, FAULTED (R72). -/
def State.faulted (s : State) (k : AlarmKind) (x : Option Lane) : State :=
  match s.seq.active with
  | some a => s.vacated a .faulted (.byAlarm k) x
  | none => s

theorem State.faulted_of_active {s : State} {a : Running} (h : s.seq.active = some a) (k : AlarmKind)
    (x : Option Lane) : s.faulted k x = s.vacated a .faulted (.byAlarm k) x := by
  simp only [State.faulted, h]

theorem State.faulted_of_empty {s : State} (h : s.seq.active = none) (k : AlarmKind)
    (x : Option Lane) : s.faulted k x = s := by
  simp only [State.faulted, h]

theorem State.faulted_eq (s : State) (k : AlarmKind) (x : Option Lane) :
    s.departActive .faulted (.byAlarm k) x = s.faulted k x := by
  cases h : s.seq.active with
  | none => rw [State.departActive_of_empty _ _ _ h, State.faulted_of_empty h]
  | some a => rw [State.departActive_eq _ _ _ h, State.faulted_of_active h]

/-- ALARM entered: the run is ended as `State.calmed` says, the ports brake, and the state is reported. -/
theorem State.enterAlarm_eq {s : State} (hslot : s.slotMatches) (k : AlarmKind) (x : Option Lane) :
    s.enterAlarm k x = (s.faulted k x).calmed.alarmPorts.moved .alarm := by
  have hspell : s.seq.active = none → s.seq.motion.running = false := fun h => by
    rw [← hslot, h]
    rfl
  have hmoved : (s.faulted k x).calmed.enter .alarm = (s.faulted k x).calmed.moved .alarm := by
    cases h : s.seq.active with
    | some a =>
      rw [State.faulted_of_active h]
      exact State.enter_moved (by decide) (fun _ => rfl) (fun _ => rfl)
    | none =>
      rw [State.faulted_of_empty h]
      have hrun := hspell h
      refine State.enter_moved (by decide) (fun hm => ?_) (fun hm => ?_)
      · rw [show s.seq.motion = .degraded from hm] at hrun
        cases hrun
      · rw [show s.seq.motion = .settling from hm] at hrun
        cases hrun
  have henter : s.enterAlarm k x = ((s.faulted k x).calmed.enter .alarm).alarmPorts := by
    unfold State.enterAlarm
    rw [State.faulted_eq, State.abandonShelf_eq]
    rfl
  rw [henter, hmoved, State.moved_alarm, State.moved_alarm]
  rfl

theorem State.alarmed_eq (s : State) (k : AlarmKind) (x : Option Lane) :
    s.alarmed k x = ((s.firstCause k x).faulted k x).calmed.alarmPorts.moved .alarm := by
  have hactive : (s.firstCause k x).seq.active = s.seq.active := rfl
  unfold State.alarmed
  cases h : s.seq.active with
  | some a =>
    rw [State.faulted_of_active (hactive.trans h)]
    rfl
  | none =>
    rw [State.faulted_of_empty (hactive.trans h)]
    rfl

/-- Every alarm is raised as R155 says. -/
theorem State.raiseAlarm_eq {s : State} (hslot : s.slotMatches) (k : AlarmKind) (x : Option Lane) :
    s.raiseAlarm k x = s.raised k x := by
  by_cases h : s.seq.motion = .alarm
  · exact State.raiseAlarm_joined h k x
  · unfold State.raiseAlarm State.raised
    rw [if_neg h, if_neg h, State.alarmed_eq]
    exact State.enterAlarm_eq (s := s.firstCause k x) hslot k x

/-! ### An alarm at a sample (R117, R118) -/

theorem State.raised_motion {s : State} (hslot : s.slotMatches) (k : AlarmKind) (x : Option Lane) :
    (s.raised k x).seq.motion = .alarm := by
  rw [← State.raiseAlarm_eq hslot]
  exact State.raiseAlarm_motion s k x

/-- In ALARM a sample goes on to its telemetry only (R118, R119, R123). -/
theorem State.takeSample_alarm {s : State} {x : Lane} {tag : Byte} {v : SampleFields}
    (h : ((s.recordSample x v).checkDrive x v).seq.motion = .alarm) :
    s.takeSample x tag v = ((s.recordSample x v).checkDrive x v).telemetryStep x := by
  unfold State.takeSample
  generalize (s.recordSample x v).checkDrive x v = t at h ⊢
  have hdrive : t.driveSteps x tag = (t, false) := by
    simp only [State.driveSteps, State.runningSteps, h, MotionState.running, Bool.false_eq_true, if_false,
      State.commandStep, State.commandedAt, State.placeSetpoint]
    rfl
  have herror : t.errorStep x v false = t := if_pos (.inr (.inl h))
  dsimp only
  rw [hdrive, herror]

/-! ## What an alarm leaves (R72, R131, R155) -/

/-- An alarm's fault empties the slot and leaves the queue, the alarm record, the samples, the ports and the
tables. -/
theorem State.faulted_fields (s : State) (k : AlarmKind) (x : Option Lane) :
    (s.faulted k x).seq.active = none ∧ (s.faulted k x).seq.queue = s.seq.queue ∧
      (s.faulted k x).cond = s.cond ∧ (s.faulted k x).servo.latest = s.servo.latest ∧
      (s.faulted k x).ports = s.ports ∧ (s.faulted k x).planner = s.planner := by
  cases h : s.seq.active with
  | some a =>
    rw [State.faulted_of_active h]
    exact ⟨rfl, rfl, rfl, rfl, rfl, rfl⟩
  | none =>
    rw [State.faulted_of_empty h]
    exact ⟨h, rfl, rfl, rfl, rfl, rfl⟩

/-- An alarm that enters ALARM, field by field. -/
theorem State.alarmed_fields (s : State) (k : AlarmKind) (x : Option Lane) :
    (s.alarmed k x).seq.motion = .alarm ∧ (s.alarmed k x).seq.active = none ∧
      (s.alarmed k x).seq.shelf = [] ∧ (s.alarmed k x).seq.mode = .hold ∧
      (s.alarmed k x).planner.current = .none ∧ (s.alarmed k x).seq.queue = s.seq.queue ∧
      (s.alarmed k x).cond = { s.cond with
        first := some { kind := k, axis := x, time := s.time.mount }, causeSet := [(k, x)] } := by
  obtain ⟨hactive, hqueue, hcond, -⟩ := (s.firstCause k x).faulted_fields k x
  rw [State.alarmed_eq, State.moved_alarm]
  exact ⟨rfl, hactive, rfl, rfl, rfl, hqueue, hcond⟩

/-- The outcome entries of an alarm: the active target's, and then the shelf's from the top down. -/
theorem State.alarmed_outcomes {s : State} {a : Running} (h : s.seq.active = some a) (k : AlarmKind)
    (x : Option Lane) :
    (s.alarmed k x).seq.outcomes =
      (leaving (s.seq.shelf.map (·.record)) .abandoned .aborted .shelved s.time.mount).foldl
        pushOutcome (pushOutcome s.seq.outcomes
          { record := s.leavingRecord a, verdict := .faulted, reason := .byAlarm k, axis := x
            time := s.time.mount, place := .active }) := by
  rw [State.alarmed_eq, State.faulted_of_active (s := s.firstCause k x) h, State.moved_alarm]
  rfl

theorem State.alarmed_latest (s : State) (k : AlarmKind) (axis : Option Lane) (x : Lane) {l : LatestSample}
    (h : (s.alarmed k axis).servo.latest.get x = some l) : l.seenSinceAlarm = false := by
  obtain ⟨-, -, -, hlatest, -⟩ := (s.firstCause k axis).faulted_fields k axis
  rw [State.alarmed_eq, State.moved_alarm] at h
  simp only [State.alarmPorts, State.calmed, Lanes.get_map, Option.map_eq_some_iff] at h
  obtain ⟨m, -, rfl⟩ := h
  rfl

/-- Each port at an entry to ALARM: an in-flight SETPOINT cut off, none waiting, and a BRAKE (R131). -/
theorem State.alarmed_port (s : State) (k : AlarmKind) (axis : Option Lane) (x : Lane) :
    (s.alarmed k axis).ports.get x = { s.ports.get x with
      tx := { (s.ports.get x).tx with inFlight := (s.ports.get x).tx.inFlight.map cutInFlight }
      setpoint := none
      control := some (brakeFrame (s.axis x).node) } := by
  obtain ⟨-, -, -, -, hports, hplanner⟩ := (s.firstCause k axis).faulted_fields k axis
  have hports' : ((s.firstCause k axis).faulted k axis).calmed.ports = s.ports := hports
  have haxes : ((s.firstCause k axis).faulted k axis).calmed.planner.axes = s.planner.axes :=
    congrArg (·.axes) hplanner
  have haxis : ((s.firstCause k axis).faulted k axis).calmed.axis x = s.axis x := by
    unfold State.axis
    rw [haxes]
  rw [State.alarmed_eq, State.moved_alarm]
  simp only [State.alarmPorts, Lanes.get_of, hports', haxis]

/-! ### The frame cut off (R131) -/

theorem cutInFlight_other {i : InFlight} (h : i.frame.kind ≠ 0x20 ∨ i.cut = true) : cutInFlight i = i :=
  if_neg fun k => h.elim (fun hk => hk k.1) (fun hc => by rw [hc] at k; cases k.2)

theorem cutInFlight_setpoint {i : InFlight} (hk : i.frame.kind = 0x20) (hc : i.cut = false) :
    cutInFlight i = { i with wire := cutWire i.wire i.pos, cut := true } :=
  if_pos ⟨hk, hc⟩

/-- Two inverted CRC bytes follow a byte ahead of the CRC. -/
theorem cutWire_before {wire : List Byte} {pos : Nat} (h : pos + 2 < wire.length) :
    cutWire wire pos = wire.take (pos + 1) ++
      (natBytes 2 (crc16 ((wire.take (pos + 1)).drop 1)).toNat).map (fun b => ~~~b) := by
  unfold cutWire
  rw [if_neg (by omega), if_neg (by omega), crcBytes_eq]

/-- On the first CRC byte the second is sent inverted. -/
theorem cutWire_first {wire : List Byte} {pos : Nat} (h : pos + 2 = wire.length) :
    cutWire wire pos = wire.take (pos + 1) ++ (wire.drop (pos + 1)).map (fun b => ~~~b) := by
  unfold cutWire
  rw [if_neg (by omega), if_pos h.symm]

/-- On the last CRC byte nothing is left to replace. -/
theorem cutWire_last {wire : List Byte} {pos : Nat} (h : wire.length ≤ pos + 1) :
    cutWire wire pos = wire := if_pos h

/-! ## Alarms at a sample (R117) -/

theorem sampleOf_length {p : List Byte} {v : SampleFields} (h : sampleOf p = some v) : p.length = 7 := by
  unfold sampleOf at h
  split at h
  · assumption
  · cases h

/-- A SAMPLE of the axis's own node at a hunting receiver is taken (R115). -/
theorem exec_sample {s : State} {x : Lane} {f : Frame} {v : SampleFields}
    (hrx : (s.ports.get x).rx = .hunt) (hdest : f.dest = 0x01) (hsrc : f.src = (s.axis x).node)
    (hkind : f.kind = 0x21) (hv : sampleOf f.payload = some v) :
    exec (.sample x f) s = .next (s.takeSample x f.tag v) := by
  have hsize : f.payload.length ≤ Config.payloadSize := by
    rw [sampleOf_length hv]
    decide
  show Host.Outcome.next (s.receiveLine (.axis x) (frameLine f)) = _
  rw [State.receiveLine_frame hrx hsize, State.sortAxis, if_pos ⟨hdest, hsrc⟩, if_pos hkind, hv]

section

variable {s : State} {x : Lane} {v : SampleFields}

/-- The drive checks of a sample that raises at least one alarm (R117). -/
theorem State.checkDrive_raised (hslot : s.slotMatches) :
    (v.fault = true → (v.limitSwitch || s.beyondHard x v) = false →
      s.checkDrive x v = s.raised .driveFault (some x)) ∧
    (v.fault = false → (v.limitSwitch || s.beyondHard x v) = true →
      s.checkDrive x v = s.raised .hardLimit (some x)) ∧
    (v.fault = true → (v.limitSwitch || s.beyondHard x v) = true →
      s.checkDrive x v = (s.raised .driveFault (some x)).raised .hardLimit (some x)) := by
  unfold State.checkDrive
  refine ⟨fun hf hh => ?_, fun hf hh => ?_, fun hf hh => ?_⟩
  · simp only [hf, hh, if_true, Bool.false_eq_true, if_false]
    exact State.raiseAlarm_eq hslot _ _
  · simp only [hf, hh, if_true, Bool.false_eq_true, if_false]
    exact State.raiseAlarm_eq hslot _ _
  · simp only [hf, hh, if_true]
    rw [State.raiseAlarm_eq hslot]
    exact State.raiseAlarm_joined (State.raised_motion hslot _ _) _ _

theorem State.raised_twice_motion (hslot : s.slotMatches) (k l : AlarmKind) (x y : Option Lane) :
    ((s.raised k x).raised l y).seq.motion = .alarm := by
  rw [← State.raiseAlarm_joined (State.raised_motion hslot k x)]
  exact State.raiseAlarm_motion _ _ _

end

/-- The alarms of a sample: the drive checks decide, and only the telemetry follows (R117, R118). -/
theorem exec_sample_raised {s : State} {x : Lane} {f : Frame} {v : SampleFields} {t : State}
    (hexec : exec (.sample x f) s = .next (s.takeSample x f.tag v))
    (hcheck : (s.recordSample x v).checkDrive x v = t) (ht : t.seq.motion = .alarm) :
    exec (.sample x f) s = .next (t.telemetryStep x) := by
  subst hcheck
  rw [hexec, State.takeSample_alarm ht]

/-! ## The obligation -/

theorem exec_encoderSilent (s : State) (x : Lane) (hslot : s.slotMatches) :
    (∀ w, s.servo.watch.get x = some w →
      (w.restart + w.interval ≤ s.time.mount →
        exec (.encoderSilent x) s = .next (s.raised .encoderSilent (some x))) ∧
      (s.time.mount < w.restart + w.interval → exec (.encoderSilent x) s = .next s)) ∧
    (s.servo.watch.get x = none → exec (.encoderSilent x) s = .next s) := by
  have hexec : exec (.encoderSilent x) s =
      .next (if s.watchDue x then s.raised .encoderSilent (some x) else s) := by
    rw [← State.raiseAlarm_eq hslot]
    rfl
  rw [hexec]
  refine ⟨fun w hw => ⟨fun h => ?_, fun h => ?_⟩, fun hw => ?_⟩
  · rw [if_pos (by simp [State.watchDue, hw, h])]
  · rw [if_neg (by simp [State.watchDue, hw, h])]
  · rw [if_neg (by simp [State.watchDue, hw])]

/-- Settles O54: an alarm joins the cause set in ALARM and ends the run outside it, and the events raise
it. -/
theorem alarmsEnterAlarm : Obligations.AlarmsEnterAlarm := by
  refine ⟨fun s x hslot => ?_, fun s k axis x hslot hm => ?_⟩
  · obtain ⟨hwatched, hunwatched⟩ := exec_encoderSilent s x hslot
    refine ⟨congrArg _ (State.raiseAlarm_eq (s := { s with permit := false }) hslot _ _), rfl, hwatched,
      hunwatched, fun f v hrx hdest hsrc hkind hv => ?_⟩
    have hexec := exec_sample hrx hdest hsrc hkind hv
    have hslot' : (s.recordSample x v).slotMatches := hslot
    obtain ⟨hfault, hlimit, hboth⟩ := State.checkDrive_raised (x := x) (v := v) hslot'
    exact ⟨fun hf hh => exec_sample_raised hexec (hfault hf hh) (State.raised_motion hslot' _ _),
      fun hf hh => exec_sample_raised hexec (hlimit hf hh) (State.raised_motion hslot' _ _),
      fun hf hh => exec_sample_raised hexec (hboth hf hh) (State.raised_twice_motion hslot' _ _ _ _)⟩
  · have hraised : s.raised k axis = s.alarmed k axis := if_neg hm
    obtain ⟨hmotion, hactive, hshelf, hmode, hplan, hqueue, hcond⟩ := s.alarmed_fields k axis
    have hport := s.alarmed_port k axis x
    dsimp only
    rw [hraised]
    refine ⟨hmotion, hactive, hshelf, hmode, hplan, hqueue, hcond,
      fun a ha => State.alarmed_outcomes ha k axis, fun l hl => s.alarmed_latest k axis x hl, ?_⟩
    rw [hport]
    refine ⟨rfl, rfl, rfl, fun h => ?_, fun i hi => ⟨fun h => ?_, fun hk hc => ⟨fun h => ?_, fun h => ?_,
      fun h => ?_⟩⟩⟩
    · simp only [h, Option.map_none]
      rw [← h]
    · simp only [hi, Option.map_some, cutInFlight_other h]
      rw [← hi]
    · simp only [hi, Option.map_some, cutInFlight_setpoint hk hc, cutWire_before h]
    · simp only [hi, Option.map_some, cutInFlight_setpoint hk hc, cutWire_first h]
    · simp only [hi, Option.map_some, cutInFlight_setpoint hk hc, cutWire_last h]

end Sys2Proof.Machine

/-! # The segment store and the samples: obligations O11, O27, O28, O53, O60 -/

namespace Sys2Proof.Machine

set_option Elab.async false

/-! ## Who stands where, and whose chains there are (R1, R6, R26)

The invariant of O11 reads five things of a state: which target_ids with which needed lanes stand in the
queue, the slot and the shelf, which chain headers there are, and whether the motion state is a running one.
`State.roster` is these five. An operation that leaves the roster alone keeps the invariant at once, and the
few that change it (departures, the slot taken, admissions, resets) are treated one by one. -/

/-- What a record claims of the Segment Store: its target_id and its needed lanes (R1, R26). -/
def TargetRecord.claim (r : TargetRecord) : Nat × List Lane := (r.targetId, r.neededLanes)

/-- The claims by place, the chain headers, and whether the motion state is a running one. -/
structure Roster where
  queued : List (Nat × List Lane)
  active : Option (Nat × List Lane)
  shelved : List (Nat × List Lane)
  headers : List (Nat × Lane)
  running : Bool

/-- The roster of a state. -/
def State.roster (s : State) : Roster where
  queued := s.seq.queue.map TargetRecord.claim
  active := s.seq.active.map (·.record.claim)
  shelved := s.seq.shelf.map (·.record.claim)
  headers := s.chains.map Chain.key
  running := s.seq.motion.running

/-- All claims that stand. -/
def Roster.claims (r : Roster) : List (Nat × List Lane) := r.queued ++ (r.active.toList ++ r.shelved)

/-- The chain headers that some claims call for (R26). -/
def claimedHeaders (cs : List (Nat × List Lane)) : List (Nat × Lane) :=
  cs.flatMap (fun c => c.2.map (fun x => (c.1, x)))

/-- No target_id stands twice, the chain headers are those that the claims call for, and the slot is empty
outside the running states. -/
structure Roster.Sound (r : Roster) : Prop where
  ids : (r.claims.map Prod.fst).Nodup
  headers : r.headers.Perm (claimedHeaders r.claims)
  slot : r.running = false → r.active = none

/-- A state whose roster is sound: the invariant of O11 with the two that it stands on. -/
def State.Chained (s : State) : Prop := s.roster.Sound

theorem State.claims_eq (s : State) : s.roster.claims = s.standing.map TargetRecord.claim := by
  cases h : s.seq.active <;> simp [Roster.claims, State.roster, State.standing, h]

theorem State.claims_ids (s : State) : s.roster.claims.map Prod.fst = s.ids := by
  rw [State.claims_eq, List.map_map]
  rfl

theorem State.claimedHeaders_eq (s : State) : claimedHeaders s.roster.claims = headersOf s.standing := by
  rw [State.claims_eq, claimedHeaders, List.flatMap_map]
  rfl

theorem State.chained_of {s : State} (hslot : s.slotMatches) (hids : s.idsUnique) (h : s.headersMatch) :
    s.Chained where
  ids := by rw [State.claims_ids]; exact hids
  headers := by rw [State.claimedHeaders_eq]; exact h
  slot hr := by
    rw [State.slotMatches, show s.seq.motion.running = false from hr] at hslot
    exact Option.map_eq_none_iff.mpr (Option.not_isSome_iff_eq_none.mp (by simp [hslot]))

theorem State.Chained.idsUnique {s : State} (h : s.Chained) : s.idsUnique := by
  have := h.ids
  rwa [State.claims_ids] at this

theorem State.Chained.headersMatch {s : State} (h : s.Chained) : s.headersMatch := by
  have := h.headers
  rwa [State.claimedHeaders_eq] at this

/-- No two chains of a chained state have one owner and one lane. -/
theorem State.Chained.keys {s : State} (h : s.Chained) : (s.chains.map Chain.key).Nodup :=
  State.chainKeys_nodup h.idsUnique h.headersMatch

theorem State.Chained.empty {s : State} (h : s.Chained) (hm : s.seq.motion.running = false) :
    s.seq.active = none := Option.map_eq_none_iff.mp (h.slot hm)

theorem State.Chained.of_roster {s t : State} (h : s.Chained) (he : t.roster = s.roster) : t.Chained := by
  unfold State.Chained
  rw [he]
  exact h

/-! ### What keeps a roster sound -/

theorem claimedHeaders_perm {cs ds : List (Nat × List Lane)} (h : cs.Perm ds) :
    (claimedHeaders cs).Perm (claimedHeaders ds) := h.flatMap_right _

/-- The headers of some claims are those of their owners. -/
theorem claimedHeaders_filter (cs : List (Nat × List Lane)) (gone : List Nat) :
    claimedHeaders (cs.filter (fun c => decide (c.1 ∉ gone))) =
      (claimedHeaders cs).filter (fun k => decide (k.1 ∉ gone)) := by
  induction cs with
  | nil => rfl
  | cons c cs ih =>
    have hcons : ∀ l, claimedHeaders (c :: l) = c.2.map (fun x => (c.1, x)) ++ claimedHeaders l :=
      fun _ => rfl
    rw [hcons, List.filter_append, ← ih, List.filter_cons]
    by_cases h : c.1 ∈ gone <;> simp [h, hcons, List.filter_map, Function.comp_def]

/-- Records that change their place among the three, with the chains as they were. -/
theorem Roster.Sound.moves {r q : Roster} (h : r.Sound) (claims : q.claims.Perm r.claims)
    (headers : q.headers = r.headers) (slot : q.running = false → q.active = none) : q.Sound where
  ids := (claims.map Prod.fst).nodup_iff.mpr h.ids
  headers := by
    rw [headers]
    exact h.headers.trans (claimedHeaders_perm claims).symm
  slot := slot

/-- Records that leave, each with its chains (R20, R45). -/
theorem Roster.Sound.sheds {r q : Roster} (h : r.Sound) (gone : List Nat)
    (claims : q.claims.Perm (r.claims.filter (fun c => decide (c.1 ∉ gone))))
    (headers : q.headers = r.headers.filter (fun k => decide (k.1 ∉ gone)))
    (slot : q.running = false → q.active = none) : q.Sound where
  ids := (claims.map Prod.fst).nodup_iff.mpr (h.ids.sublist (List.filter_sublist.map _))
  headers := by
    rw [headers]
    refine (h.headers.filter _).trans ?_
    rw [← claimedHeaders_filter]
    exact (claimedHeaders_perm claims).symm
  slot := slot

/-- A record that is taken in, with its chains (R11, R14). -/
theorem Roster.Sound.admits {r q : Roster} (h : r.Sound) (c : Nat × List Lane)
    (absent : c.1 ∉ r.claims.map Prod.fst) (claims : q.claims.Perm (c :: r.claims))
    (headers : q.headers = r.headers ++ c.2.map (fun x => (c.1, x)))
    (slot : q.running = false → q.active = none) : q.Sound where
  ids := (claims.map Prod.fst).nodup_iff.mpr (List.nodup_cons.mpr ⟨absent, h.ids⟩)
  headers := by
    rw [headers]
    refine List.Perm.trans ?_ (claimedHeaders_perm claims).symm
    exact List.perm_append_comm.trans (h.headers.append_left _)
  slot := slot

/-- Where no target_id stands twice, those that leave one place stand in no other. -/
theorem filter_elsewhere {here there : List (Nat × List Lane)} {gone : List Nat}
    (hnd : ((here ++ there).map Prod.fst).Nodup) (hgone : ∀ id ∈ gone, id ∈ here.map Prod.fst) :
    there.filter (fun c => decide (c.1 ∉ gone)) = there := by
  rw [List.map_append] at hnd
  refine List.filter_eq_self.mpr fun c hc => decide_eq_true fun hg => ?_
  exact List.disjoint_of_nodup_append hnd (hgone _ hg) (List.mem_map_of_mem hc)

/-- The headers of a store from which some owners' chains are released (R45). -/
theorem departed_headers (s : State) (es : List OutcomeEntry) :
    (s.departed es).roster.headers =
      s.roster.headers.filter (fun k => decide (k.1 ∉ es.map (·.record.targetId))) := by
  simp only [State.roster, State.departed, List.filter_map]
  rfl

/-! ### Departures (R19, R20, R45, R66) -/

theorem claims_filter (rs : List TargetRecord) (gone : List Nat) :
    (rs.filter (fun q => decide (q.targetId ∉ gone))).map TargetRecord.claim =
      (rs.map TargetRecord.claim).filter (fun c => decide (c.1 ∉ gone)) := by
  rw [List.filter_map]
  rfl

theorem shelvedClaims_filter (es : List Running) (gone : List Nat) :
    (es.filter (fun e => decide (e.record.targetId ∉ gone))).map (·.record.claim) =
      (es.map (·.record.claim)).filter (fun c => decide (c.1 ∉ gone)) := by
  rw [List.filter_map]
  rfl

/-- Records of the queue that leave with their chains. -/
theorem State.Chained.leaveQueue {s t : State} (h : s.Chained) (gone : List Nat)
    (hgone : ∀ id ∈ gone, id ∈ s.seq.queue.map (·.targetId))
    (queue : t.seq.queue = s.seq.queue.filter (fun q => decide (q.targetId ∉ gone)))
    (headers : t.roster.headers = s.roster.headers.filter (fun k => decide (k.1 ∉ gone)))
    (active : t.seq.active = s.seq.active) (shelf : t.seq.shelf = s.seq.shelf)
    (motion : t.seq.motion = s.seq.motion) : t.Chained := by
  refine Roster.Sound.sheds h gone (.of_eq ?_) headers ?_
  · have hrest := filter_elsewhere (gone := gone) h.ids (by simpa [State.roster, TargetRecord.claim] using hgone)
    unfold Roster.claims
    rw [List.filter_append, hrest]
    simp only [State.roster, queue, active, shelf, claims_filter]
  · simpa only [State.roster, active, motion] using h.slot

theorem State.departQueued_chained {s : State} (h : s.Chained) {r : TargetRecord} (hr : r ∈ s.seq.queue)
    (v : Verdict) (why : Reason) : (s.departQueued r v why).Chained := by
  have hfilter : s.seq.queue.filter (fun q => q.targetId != r.targetId) =
      s.seq.queue.filter (fun q => decide (q.targetId ∉ [r.targetId])) :=
    List.filter_congr fun q _ => by by_cases hq : q.targetId = r.targetId <;> simp [hq]
  refine h.leaveQueue [r.targetId] ?_ ((State.departQueued_seq s r v why).1.trans hfilter) ?_ rfl rfl rfl
  · simpa using ⟨r, hr, rfl⟩
  · rw [State.departQueued_eq]
    exact departed_headers s _

theorem State.departAllQueued_chained {s : State} (h : s.Chained) {rs : List TargetRecord}
    (hrs : ∀ r ∈ rs, r ∈ s.seq.queue) (v : Verdict) (why : Reason) :
    (s.departAllQueued rs v why).Chained := by
  obtain ⟨starved, startHanded, expiryHanded, he⟩ := State.departAllQueued_eq v why rs s
  have hids : (leaving rs v why .queued s.time.mount).map (·.record.targetId) = rs.map (·.targetId) :=
    List.map_map
  refine h.leaveQueue (rs.map (·.targetId)) ?_ ?_ ?_ ?_ ?_ ?_
  · intro id hid
    obtain ⟨r, hr, rfl⟩ := List.mem_map.mp hid
    exact List.mem_map_of_mem (hrs r hr)
  · rw [he]
    rfl
  · rw [he, ← hids]
    exact departed_headers s _
  all_goals rw [he]; rfl

theorem State.expireHanded_chained {s : State} (h : s.Chained) : s.expireHanded.Chained :=
  State.departAllQueued_chained h (fun _ hr => List.mem_of_mem_filter hr) _ _

/-- Entries of the shelf that leave with their chains. -/
theorem State.Chained.leaveShelf {s t : State} (h : s.Chained) (gone : List Nat)
    (hgone : ∀ id ∈ gone, id ∈ s.seq.shelf.map (·.record.targetId))
    (shelf : t.seq.shelf = s.seq.shelf.filter (fun e => decide (e.record.targetId ∉ gone)))
    (headers : t.roster.headers = s.roster.headers.filter (fun k => decide (k.1 ∉ gone)))
    (queue : t.seq.queue = s.seq.queue) (active : t.seq.active = s.seq.active)
    (motion : t.seq.motion = s.seq.motion) : t.Chained := by
  refine Roster.Sound.sheds h gone (.of_eq ?_) headers ?_
  · have hids : ((s.roster.shelved ++ (s.roster.queued ++ s.roster.active.toList)).map Prod.fst).Nodup := by
      refine (List.Perm.map Prod.fst ?_).nodup_iff.mp h.ids
      rw [Roster.claims, ← List.append_assoc]
      exact List.perm_append_comm
    have hrest := filter_elsewhere (gone := gone) hids (by simpa [State.roster, TargetRecord.claim] using hgone)
    unfold Roster.claims
    rw [← List.append_assoc, ← List.append_assoc, List.filter_append, hrest]
    simp only [State.roster, queue, active, shelf, shelvedClaims_filter]
  · simpa only [State.roster, active, motion] using h.slot

theorem State.departShelved_chained {s : State} (h : s.Chained) {e : Running} (he : e ∈ s.seq.shelf)
    (v : Verdict) (why : Reason) : (s.departShelved e v why).Chained := by
  have hfilter : s.seq.shelf.filter (fun q => q.record.targetId != e.record.targetId) =
      s.seq.shelf.filter (fun q => decide (q.record.targetId ∉ [e.record.targetId])) :=
    List.filter_congr fun q _ => by
      by_cases hq : q.record.targetId = e.record.targetId <;> simp [hq]
  refine h.leaveShelf [e.record.targetId] ?_ ((State.departShelved_seq s e v why).2.2.1.trans hfilter) ?_
    rfl rfl rfl
  · simpa using ⟨e, he, rfl⟩
  · unfold State.departShelved
    rw [State.depart_eq]
    exact departed_headers s _

theorem State.abandonShelf_chained {s : State} (h : s.Chained) (why : Reason) :
    (s.abandonShelf why).Chained := by
  have hids : (leaving (s.seq.shelf.map (·.record)) .abandoned why .shelved s.time.mount).map
      (·.record.targetId) = s.seq.shelf.map (·.record.targetId) := by
    simp [leaving, Function.comp_def]
  rw [State.abandonShelf_eq]
  refine h.leaveShelf (s.seq.shelf.map (·.record.targetId)) (fun _ hid => hid) ?_ ?_ rfl rfl rfl
  · refine (List.filter_eq_nil_iff.mpr fun e he => ?_).symm
    simpa using ⟨e, he, rfl⟩
  · rw [← hids]
    exact departed_headers s _

/-- After a departure of the active target the slot is empty, and its chains are gone with it. -/
theorem State.departActive_chained {s : State} (h : s.Chained) (v : Verdict) (why : Reason)
    (x : Option Lane) : (s.departActive v why x).Chained := by
  cases ha : s.seq.active with
  | none => rw [State.departActive_of_empty v why x ha]; exact h
  | some a =>
    rw [State.departActive_eq v why x ha]
    have hactive : s.roster.active = some a.record.claim := by simp [State.roster, ha]
    have hperm : s.roster.claims.Perm (a.record.claim :: (s.roster.queued ++ s.roster.shelved)) := by
      rw [Roster.claims, hactive]
      exact List.perm_middle
    have hids : (([a.record.claim] ++ (s.roster.queued ++ s.roster.shelved)).map Prod.fst).Nodup :=
      (hperm.map Prod.fst).nodup_iff.mp h.ids
    refine Roster.Sound.sheds h [a.record.targetId] ?_ (departed_headers s _) (fun _ => rfl)
    refine List.Perm.trans (.of_eq ?_) (hperm.filter _).symm
    rw [List.filter_cons_of_neg (by simp [TargetRecord.claim]),
      filter_elsewhere hids (by simp [TargetRecord.claim])]
    rfl

/-! ### Changes that leave the roster alone -/

theorem Running.keeps.claim {f : Running → Running} (hf : Running.keeps f) (a : Running) :
    (f a).record.claim = a.record.claim := by
  obtain ⟨hid, hrot, -⟩ := hf a
  simp only [TargetRecord.claim, TargetRecord.neededLanes, hid, hrot]

theorem State.mapActive_roster (s : State) {f : Running → Running}
    (hf : ∀ a, (f a).record.claim = a.record.claim) : (s.mapActive f).roster = s.roster := by
  cases h : s.seq.active <;> simp [State.roster, State.mapActive, h, hf]

theorem State.keeps_roster (s : State) {f : Running → Running} (hf : Running.keeps f) :
    (s.mapActive f).roster = s.roster := State.mapActive_roster s hf.claim

theorem State.mapContext_roster (s : State) (f : Context → Context) :
    (s.mapContext f).roster = s.roster := State.mapActive_roster s (fun _ => rfl)

theorem State.mapGuide_roster (s : State) (f : GuideContext → GuideContext) :
    (s.mapGuide f).roster = s.roster := State.mapActive_roster s (fun _ => rfl)

theorem State.mapStats_roster (s : State) (f : Statistics → Statistics) :
    (s.mapStats f).roster = s.roster := State.mapActive_roster s (fun _ => rfl)

/-- A store with one chain changed in anything but its owner and lane. -/
theorem State.mapChain_roster (s : State) (id : Nat) (x : Lane) {f : Chain → Chain}
    (hf : ∀ c, (f c).key = c.key) :
    State.roster { s with chains := mapChain s.chains id x f } = s.roster := by
  unfold State.roster
  dsimp only
  rw [mapChain_keys _ _ _ hf]

theorem State.retireTarget_roster (s : State) (id t : Nat) :
    State.roster { s with chains := retireTarget s.chains id t } = s.roster := by
  unfold State.roster
  dsimp only
  rw [retireTarget_keys]

theorem State.endSpell_roster (s : State) : s.endSpell.roster = s.roster := by
  obtain ⟨f, hf, he⟩ := State.endSpell_eq s
  rw [he]
  exact s.keeps_roster hf

/-- An entry changes nothing of the roster but whether the state is a running one. -/
theorem State.enter_roster (s : State) (m : MotionState) :
    (s.enter m).roster = { s.roster with running := m.running } := by
  obtain ⟨rep, corr, freeIndex, f, spell, settle, hf, he, -⟩ := State.enter_eq s m
  rw [he]
  exact congrArg (fun r : Roster => { r with running := m.running }) (s.keeps_roster hf)

theorem State.enter_chained {s : State} (h : s.Chained) {m : MotionState}
    (hm : m.running = true ∨ s.seq.active = none) : (s.enter m).Chained := by
  refine Roster.Sound.moves h (.of_eq ?_) ?_ (fun hr => ?_)
  · rw [State.enter_roster]; rfl
  · rw [State.enter_roster]
  · rw [State.enter_roster] at hr ⊢
    rcases hm with hm | hm
    · exact absurd (hm.symm.trans hr) (by decide)
    · simp [State.roster, hm]

/-! ### Activation, restores and the end-of-target rule (R51 to R54, R64, R65) -/

/-- A record in the empty slot, from the queue or from the shelf, with the chains as they were. -/
theorem State.takeSlot_chained {s t : State} {a : Running} (p : SlewPlan) (h : s.Chained)
    (headers : t.roster.headers = s.roster.headers)
    (claims : (t.roster.queued ++ (a.record.claim :: t.roster.shelved)).Perm s.roster.claims) :
    (t.takeSlot a p).Chained := by
  unfold State.takeSlot
  refine Roster.Sound.moves h ?_ ?_ (fun hr => ?_)
  · rw [State.enter_roster]; exact claims
  · rw [State.enter_roster]; exact headers
  · rw [State.enter_roster] at hr
    cases hr

theorem State.starve_roster (s : State) (r : TargetRecord) (t : Nat) (c : Lanes Bool) :
    (s.starve r t c).roster = s.roster := by
  unfold State.starve
  split <;> rfl

/-- Where the activation test may run, the slot is empty. -/
theorem State.Chained.empty_of_mayActivate {s : State} (h : s.Chained) {inRule : Bool}
    {r : TargetRecord} (hrule : inRule = true → s.seq.active = none)
    (hmay : s.mayActivate inRule r = true) : s.seq.active = none := by
  cases inRule with
  | true => exact hrule rfl
  | false =>
    have hidle : s.seq.motion = .idle := by
      simp only [State.mayActivate, Bool.or_false, Bool.and_eq_true, decide_eq_true_eq] at hmay
      exact hmay.1.1.1
    exact h.empty (by rw [hidle]; rfl)

/-- The head of the queue activated into the empty slot. -/
theorem State.activate_chained {s : State} (h : s.Chained) {r : TargetRecord} {rest : List TargetRecord}
    (hq : s.seq.queue = r :: rest) (ha : s.seq.active = none) (p : SlewPlan) :
    ((s.setQueue rest).activate r p).Chained := by
  refine State.takeSlot_chained p h rfl ?_
  have hclaims : s.roster.claims = r.claim :: (rest.map TargetRecord.claim ++ s.roster.shelved) := by
    simp [Roster.claims, State.roster, hq, ha]
  rw [hclaims]
  exact List.perm_middle

theorem activationTest_chained (inRule : Bool) (o : Lanes Motion) :
    ∀ (n : Nat) (s : State), s.Chained → (inRule = true → s.seq.active = none) →
      (activationTest inRule o n s).Chained := by
  intro n
  induction n with
  | zero => exact fun s h _ => h
  | succ n ih =>
    intro s h hrule
    unfold activationTest
    split
    · exact h
    · rename_i r rest hq
      have h0 := h.of_roster (s.retireTarget_roster r.targetId s.time.mount)
      split
      · rename_i hmay
        have ha := h.empty_of_mayActivate hrule hmay
        dsimp only
        split
        · exact h0.of_roster (State.starve_roster _ _ _ _)
        · exact ih _ (State.departQueued_chained h0 (hq ▸ List.mem_cons_self) _ _) (fun _ => ha)
        · split
          · exact State.activate_chained h0 hq ha _
          · exact h0.of_roster (State.starve_roster _ _ _ _)
      · exact h

theorem State.testActivation_chained {s : State} (h : s.Chained) : s.testActivation.Chained :=
  activationTest_chained _ _ _ s h nofun

theorem State.retestIfHeadChanged_chained {s : State} (h : s.Chained) (before : State) :
    (s.retestIfHeadChanged before).Chained := by
  unfold State.retestIfHeadChanged
  split
  · exact h
  · exact State.testActivation_chained h

/-- Entry to IDLE with an empty slot. -/
theorem State.enterIdle_chained {s : State} (h : s.Chained) (ha : s.seq.active = none)
    (hold : Lanes Int) : (s.enterIdle hold).Chained :=
  State.testActivation_chained (State.enter_chained
    (s := { s with seq.hold := hold, planner.current := .none }) h (.inr ha))

/-- The top of the shelf taken off and gone with its chains. -/
theorem State.depart_popped_chained {s : State} (h : s.Chained) {e : Running} {rest : List Running}
    (hq : s.seq.shelf = e :: rest) :
    ((s.popped e rest).depart e.record .abandoned .noTrajectory none .shelved).Chained := by
  have hshelf : ((e :: rest).map (·.record.targetId)).Nodup := by
    have hids := h.idsUnique
    rw [State.idsUnique, ← State.ids, State.ids_eq, hq] at hids
    exact (List.nodup_append.mp (List.nodup_append.mp hids).2.1).2.1
  have hrest : rest.filter (fun q => decide (q.record.targetId ∉ [e.record.targetId])) = rest := by
    refine List.filter_eq_self.mpr fun q hqr => decide_eq_true fun hid => ?_
    rw [List.map_cons, ← List.mem_singleton.mp hid] at hshelf
    exact (List.nodup_cons.mp hshelf).1 (List.mem_map_of_mem hqr)
  have hretired := s.retireTarget_roster e.record.targetId s.time.mount
  refine (h.of_roster hretired).leaveShelf [e.record.targetId] ?_ ?_ ?_ rfl rfl rfl
  · simp [hq]
  · rw [show ({ s with chains := retireTarget s.chains e.record.targetId s.time.mount } : State).seq.shelf =
      e :: rest from hq, List.filter_cons_of_neg (by simp), hrest]
    rfl
  · rw [State.depart_eq]
    exact departed_headers (s.popped e rest) _

theorem restoreShelf_chained (o : Lanes Motion) :
    ∀ (n : Nat) (s : State), s.Chained → s.seq.active = none → (restoreShelf o n s).Chained := by
  intro n
  induction n with
  | zero => exact fun s h _ => h
  | succ n ih =>
    intro s h ha
    unfold restoreShelf
    split
    · exact h
    · rename_i e rest hq
      have hretired := s.retireTarget_roster e.record.targetId s.time.mount
      have hfail := ih _ (State.depart_popped_chained h hq) ha
      dsimp only
      split
      · split
        · have hheaders := congrArg Roster.headers hretired
          refine State.takeSlot_chained _ h (by exact hheaders) ?_
          rw [Roster.claims, show s.roster.shelved = e.record.claim :: rest.map (·.record.claim) by
            simp [State.roster, hq], show s.roster.active = none by simp [State.roster, ha]]
          exact .refl _
        · exact hfail
      · exact hfail
      · exact hfail

theorem State.startPark_chained {s : State} (h : s.Chained) (ha : s.seq.active = none)
    (o : Lanes Motion) : (s.startPark o).Chained :=
  State.enter_chained (by exact h) (.inr ha)

theorem State.startStop_chained {s : State} (h : s.Chained) (ha : s.seq.active = none)
    (o : Lanes Motion) : (s.startStop o).Chained :=
  State.enter_chained (by exact h) (.inr ha)

theorem State.abandonShelf_active (s : State) (why : Reason) :
    (s.abandonShelf why).seq.active = s.seq.active := by
  rw [State.abandonShelf_eq]
  rfl

/-- The end-of-target rule from an empty slot. -/
theorem State.endRule_chained {s : State} (h : s.Chained) (ha : s.seq.active = none)
    (o : Lanes Motion) : (s.endRule o).Chained := by
  have h0 : State.Chained { s with seq.sup.graceCount := none } := h
  have empty : ∀ t : State, ¬ t.seq.active.isSome = true → t.seq.active = none :=
    fun _ => Option.not_isSome_iff_eq_none.mp
  unfold State.endRule
  dsimp only
  split
  · exact State.startPark_chained (State.abandonShelf_chained h0 _)
      ((State.abandonShelf_active _ _).trans ha) o
  · have hrestored := restoreShelf_chained o s.seq.shelf.length _ h0 ha
    split
    · exact hrestored
    · rename_i hslot
      have hactivated := activationTest_chained true o
        (restoreShelf o s.seq.shelf.length { s with seq.sup.graceCount := none }).seq.queue.length _
        hrestored (fun _ => empty _ hslot)
      split
      · exact hactivated
      · rename_i hslot'
        exact State.startStop_chained hactivated (empty _ hslot') o

theorem State.endActiveFrom_chained {s : State} (h : s.Chained) (o : Lanes Motion) (v : Verdict)
    (why : Reason) : (s.endActiveFrom o v why).Chained :=
  State.endRule_chained (State.departActive_chained h v why none)
    (State.departActive_slot s v why none).1 o

theorem State.endActive_chained {s : State} (h : s.Chained) (v : Verdict) (why : Reason) :
    (s.endActive v why).Chained := State.endActiveFrom_chained h _ v why

theorem State.haltRun_chained {s : State} (h : s.Chained) (why : Reason) : (s.haltRun why).Chained := by
  unfold State.haltRun
  refine State.startStop_chained ?_ ?_ _
  · exact State.abandonShelf_chained (State.departActive_chained h .withdrawn why none) why
  · exact (State.abandonShelf_active _ why).trans (State.departActive_slot s .withdrawn why none).1

/-! ### Conditions, alarms and degrade causes (R58, R60, R148, R155) -/

theorem State.flagCondition_roster (s : State) (c : Condition) (q : Byte) (n : Nat) :
    (s.flagCondition c q n).roster = s.roster := by
  obtain ⟨rep, f, hf, he⟩ := State.flagCondition_eq s c q n
  rw [he]
  exact s.keeps_roster hf

theorem State.raiseCondition_chained {s : State} (h : s.Chained) (c : Condition) (q : Byte) (n : Nat) :
    (s.raiseCondition c q n).Chained := by
  have hflag := h.of_roster (s.flagCondition_roster c q n)
  unfold State.raiseCondition
  dsimp only
  split
  · exact hflag
  · exact State.endActive_chained hflag _ _

theorem State.enterAlarm_chained {s : State} (h : s.Chained) (k : AlarmKind) (axis : Option Lane) :
    (s.enterAlarm k axis).Chained := by
  have hleft := State.abandonShelf_chained (State.departActive_chained h .faulted (.byAlarm k) axis)
    .aborted
  have ha := (State.abandonShelf_active (s.departActive .faulted (.byAlarm k) axis) .aborted).trans
    (State.departActive_slot s .faulted (.byAlarm k) axis).1
  unfold State.enterAlarm
  exact State.enter_chained (m := .alarm) (by exact hleft) (.inr ha)

theorem State.raiseAlarm_chained {s : State} (h : s.Chained) (k : AlarmKind) (axis : Option Lane) :
    (s.raiseAlarm k axis).Chained := by
  unfold State.raiseAlarm
  split
  · split <;> exact h
  · exact State.enterAlarm_chained (by exact h) k axis

/-- An entry from one running state to another. -/
theorem State.enter_roster_running {s : State} {m : MotionState} (hs : s.seq.motion.running = true)
    (hm : m.running = true) : (s.enter m).roster = s.roster := by
  rw [State.enter_roster, hm, ← hs]
  rfl

theorem State.addCause_roster (s : State) (c : DegradeCause) (x : Lane) :
    (s.addCause c x).roster = s.roster := by
  unfold State.addCause
  dsimp only
  split
  · rename_i h
    exact State.enter_roster_running (by rw [h]; rfl) rfl
  · rfl

theorem State.lowerCause_roster (s : State) (c : DegradeCause) (l : Lanes Bool) :
    (s.lowerCause c l).roster = s.roster := by
  unfold State.lowerCause
  dsimp only
  split
  · rename_i h
    refine State.enter_roster_running (by rw [h.1]; rfl) ?_
    split <;> rfl
  · rfl

theorem State.removeCause_roster (s : State) (c : DegradeCause) (x : Lane) :
    (s.removeCause c x).roster = s.roster := by
  unfold State.removeCause
  split
  · exact s.lowerCause_roster c _
  · rfl

/-! ### Guiding (chapter 7) -/

theorem State.reportGuide_roster (s : State) (left : GuideState) (cause : GuideCause) :
    (s.reportGuide left cause).roster = s.roster := by
  obtain ⟨rep, he⟩ := State.reportGuide_eq s left cause
  rw [he]
  rfl

theorem State.startAcquiring_roster (s : State) (cause : GuideCause) :
    (s.startAcquiring cause).roster = s.roster := by
  obtain ⟨rep, freeIndex, f, hf, he⟩ := State.startAcquiring_eq s cause
  rw [he]
  exact s.keeps_roster hf

theorem State.loseGuide_roster (s : State) (left : GuideState) (cause : GuideCause) :
    (s.loseGuide left cause).roster = s.roster := by
  obtain ⟨rep, freeIndex, f, hf, he⟩ := State.loseGuide_eq s left cause
  rw [he]
  exact s.keeps_roster hf

theorem State.lockGuide_roster (s : State) (left : GuideState) : (s.lockGuide left).roster = s.roster := by
  have hlocked : ∀ f, (s.mapGuide f).usedGuideFree.roster = s.roster := s.mapGuide_roster
  unfold State.lockGuide
  dsimp only
  split
  · exact hlocked _
  · exact (State.reportGuide_roster _ _ _).trans (hlocked _)

theorem State.startGuide_roster (s : State) (left : GuideState) :
    (s.startGuide left).roster = s.roster := by
  unfold State.startGuide
  dsimp only
  split
  · exact (State.startAcquiring_roster _ _).trans (s.mapGuide_roster _)
  · exact s.mapGuide_roster _

theorem State.stopGuide_roster (s : State) (left : GuideState) (clear : Bool) :
    (s.stopGuide left clear).roster = s.roster := by
  unfold State.stopGuide
  dsimp only
  split
  · exact s.mapGuide_roster _
  · exact (State.reportGuide_roster _ _ _).trans (s.mapGuide_roster _)

theorem State.goodGuide_chained {s : State} (h : s.Chained) (c : GuideContext) (g : GuideConfig)
    (f : GuideFields) : (s.goodGuide c g f).Chained := by
  have hsteps : ∀ (t : State) (azStep elStep : Int),
      ((t.addSteps g azStep elStep).lockGuide c.state).roster = t.roster :=
    fun t _ _ => (State.lockGuide_roster _ _).trans (t.mapGuide_roster _)
  unfold State.goodGuide
  dsimp only
  split
  · exact h.of_roster (hsteps _ _ _)
  · have hflag := fun q => h.of_roster (s.flagCondition_roster .guideReject q 0)
    split
    · exact (hflag _).of_roster (hsteps _ _ _)
    · refine State.endActive_chained ?_ _ _
      split
      · exact hflag _
      · exact (hflag _).of_roster (State.loseGuide_roster _ _ _)

theorem State.takeGuide_chained {s : State} (h : s.Chained) (src : Byte) (payload : List Byte) :
    (s.takeGuide src payload).Chained := by
  unfold State.takeGuide
  split
  · split
    · exact h
    · dsimp only
      split
      · exact State.goodGuide_chained (h.of_roster (s.mapGuide_roster _)) _ _ _
      · exact h.of_roster (s.mapGuide_roster _)
  · exact h

theorem State.expireGuideWatch_chained {s : State} (h : s.Chained) : s.expireGuideWatch.Chained := by
  unfold State.expireGuideWatch
  split
  · exact h
  · exact h.of_roster (State.loseGuide_roster _ _ _)

/-! ### A sample (R118) -/

section
variable {s : State} (x : Lane)

theorem State.checkDrive_chained (h : s.Chained) (f : SampleFields) : (s.checkDrive x f).Chained := by
  have hfault : (if f.fault then s.raiseAlarm .driveFault (some x) else s).Chained := by
    split
    · exact State.raiseAlarm_chained h _ _
    · exact h
  unfold State.checkDrive
  dsimp only
  split
  · exact State.raiseAlarm_chained hfault _ _
  · exact hfault

theorem State.evaluateSample_chained (h : s.Chained) : s.evaluateSample.1.Chained := by
  unfold State.evaluateSample
  split
  · exact h
  · split
    · exact h
    · exact State.endActive_chained h _ _

theorem State.evaluateChain_chained (h : s.Chained) (c : Chain) (t : Nat) :
    (s.evaluateChain x c t).1.Chained := by
  have hraise := State.raiseCondition_chained h .underrun (axisByte (some x)) 0
  unfold State.evaluateChain State.occur
  split
  · dsimp only
    split
    · exact hraise
    · exact hraise.of_roster (State.addCause_roster _ .underrunHold x)
  · dsimp only
    split
    · exact h.of_roster ((s.holdLane x none).removeCause_roster .underrunHold x)
    · exact h

theorem State.refillTest_roster (s : State) (id : Nat) (x : Lane) :
    (s.refillTest id x).roster = s.roster := by
  unfold State.refillTest
  split
  · rfl
  · split
    · exact s.mapChain_roster id x (fun _ => rfl)
    · rfl

theorem State.evaluateLane_chained (h : s.Chained) (t : Nat) : (s.evaluateLane x t).1.Chained := by
  unfold State.evaluateLane
  split
  · exact h
  · rename_i a _
    dsimp only
    split
    · exact h
    · rename_i c _
      have hretired := h.of_roster (s.mapChain_roster a.record.targetId x (fun c => c.retire_key t))
      split
      · have hvalue := State.evaluateChain_chained x hretired (c.retire t) t
        split
        · exact hvalue
        · exact hvalue.of_roster (State.refillTest_roster _ _ _)
      · exact hretired.of_roster (State.refillTest_roster _ _ _)

theorem State.runningSteps_chained (h : s.Chained) (t : Nat) : (s.runningSteps x t).1.Chained := by
  unfold State.runningSteps
  split
  · dsimp only
    split
    · exact State.evaluateSample_chained h
    · exact State.evaluateLane_chained x
        ((State.evaluateSample_chained h).of_roster (State.mapContext_roster _ _)) t
  · exact h

theorem State.convertStep_chained (h : s.Chained) (t : Nat) (m : Motion) :
    (s.convertStep x t m).1.Chained := by
  have hraise := State.raiseCondition_chained h .range (axisByte (some x)) 0
  unfold State.convertStep State.occur State.commandAfterFault
  split
  · exact h
  · split
    · exact h.of_roster (State.removeCause_roster _ _ _)
    · dsimp only
      split
      · exact hraise
      · exact hraise.of_roster (State.addCause_roster _ _ _)

theorem State.occurLimit_chained (h : s.Chained) : (s.occurLimit x).1.Chained := by
  have hflag := h.of_roster (s.flagCondition_roster .limitApproach (axisByte (some x)) 0)
  unfold State.occurLimit
  dsimp only
  split
  · exact hflag
  · exact State.endActiveFrom_chained hflag _ _ _

theorem State.softStep_chained (h : s.Chained) (t : Nat) (m : Motion) :
    (s.softStep x t m).1.Chained := by
  unfold State.softStep
  split
  · exact State.convertStep_chained x h t m
  · split
    · have hlimit := State.occurLimit_chained x h
      dsimp only
      split
      · exact hlimit
      · exact State.convertStep_chained x (hlimit.of_roster (State.addCause_roster _ _ _)) t _
    · exact State.convertStep_chained x (h.of_roster (State.removeCause_roster _ _ _)) t m

theorem State.commandStep_chained (h : s.Chained) (t : Nat) (faulted : Bool) :
    (s.commandStep x t faulted).1.Chained := by
  unfold State.commandStep
  split
  · exact h
  · split
    · exact h
    · exact State.softStep_chained x h t _

theorem State.placeSetpoint_chained (h : s.Chained) (tag : Byte) (p : Option Setpoint) :
    (s.placeSetpoint x tag p).Chained := by
  cases p <;> exact h

theorem State.settleTest_roster (hm : s.seq.motion.running = true) (err : Int) (braked : Bool) :
    (s.settleTest x err braked).roster = s.roster := by
  unfold State.settleTest
  split
  · rfl
  · split
    · rfl
    · dsimp only
      split
      · refine State.enter_roster_running hm ?_
        split <;> rfl
      · rfl

theorem State.trackTest_chained (h : s.Chained) (err : Int) : (s.trackTest x err).Chained := by
  have hraise := State.raiseCondition_chained h .trackError (axisByte (some x)) 0
  unfold State.trackTest State.occur
  split
  · dsimp only
    split
    · exact hraise
    · exact hraise.of_roster (State.addCause_roster _ .trackError x)
  · exact h

theorem State.recoverTest_roster (s : State) (x : Lane) (err : Int) (braked : Bool) :
    (s.recoverTest x err braked).roster = s.roster := by
  unfold State.recoverTest
  split
  · rfl
  · dsimp only
    split
    · split
      · exact State.addCause_roster _ _ _
      · rfl
    · split
      · exact State.lowerCause_roster _ _ _
      · rfl

theorem State.parkTest_chained (h : s.Chained) (ha : s.seq.active = none) : s.parkTest.Chained := by
  unfold State.parkTest
  split
  · split
    · exact State.enter_chained (m := .parked) (by exact h) (.inr ha)
    · exact h
  all_goals exact h

theorem State.errorTests_chained (h : s.Chained) (err : Int) (braked : Bool) :
    (s.errorTests x err braked).Chained := by
  have hraised : (s.raiseMaxError x err).Chained := h.of_roster (s.mapStats_roster _)
  unfold State.errorTests
  split
  · rename_i hm
    exact hraised.of_roster (State.settleTest_roster x (by exact congrArg MotionState.running hm) _ _)
  · exact State.trackTest_chained x hraised err
  · dsimp only
    split
    · exact hraised.of_roster (State.recoverTest_roster _ _ _ _)
    · exact hraised
  · rename_i hm
    exact State.parkTest_chained h (h.empty (congrArg MotionState.running hm))
  all_goals exact h

theorem State.errorStep_chained (h : s.Chained) (f : SampleFields) (hold : Bool) :
    (s.errorStep x f hold).Chained := by
  unfold State.errorStep
  split
  · exact h
  · dsimp only
    split
    · exact h
    · exact State.errorTests_chained x (by exact h) _ _

theorem State.telemetryStep_roster (s : State) (x : Lane) : (s.telemetryStep x).roster = s.roster := by
  unfold State.telemetryStep State.copyTelemetry
  dsimp only
  split
  · rfl
  · split
    · rfl
    · split <;> rfl

theorem State.takeSample_chained (h : s.Chained) (tag : Byte) (f : SampleFields) :
    (s.takeSample x tag f).Chained := by
  have hdrive : ∀ t : State, t.Chained → (t.driveSteps x tag).1.Chained := fun t ht =>
    State.placeSetpoint_chained x
      (State.commandStep_chained x (State.runningSteps_chained x ht _) _ _) tag _
  have hrecord := State.checkDrive_chained (s := s.recordSample x f) x h f
  exact (State.errorStep_chained x (hdrive _ hrecord) f _).of_roster (State.telemetryStep_roster _ _)

end

/-! ### The links and mount time (chapters 9 and 10) -/

theorem State.setReceiver_roster (s : State) (p : Port) (r : RxState) :
    (s.setReceiver p r).roster = s.roster := by
  cases p <;> rfl

theorem State.proxyFrame_roster (s : State) (x : Lane) (f : Frame) :
    (s.proxyFrame x f).roster = s.roster := by
  unfold State.proxyFrame
  repeat' split
  all_goals rfl

theorem State.replyFrame_roster (s : State) (x : Lane) (f : Frame) :
    (s.replyFrame x f).roster = s.roster := by
  unfold State.replyFrame
  repeat' split
  all_goals rfl

theorem State.sortSite_chained {s : State} (h : s.Chained) (f : Frame) : (s.sortSite f).Chained := by
  unfold State.sortSite
  split
  · split
    · unfold State.bufferRequest
      split <;> exact h
    · split
      · exact State.takeGuide_chained h _ _
      · exact h
  · split
    · exact h.of_roster (State.proxyFrame_roster _ _ _)
    · exact h

theorem State.sortAxis_chained {s : State} (h : s.Chained) (x : Lane) (f : Frame) :
    (s.sortAxis x f).Chained := by
  unfold State.sortAxis
  split
  · split
    · split
      · exact State.takeSample_chained x h _ _
      · exact h
    · split
      · exact h.of_roster (State.replyFrame_roster _ _ _)
      · exact h
  · exact h

theorem State.takeRx_chained {s : State} (h : s.Chained) (p : Port) (e : RxEvent) :
    (State.takeRx p s e).Chained := by
  cases e with
  | received f =>
    cases p with
    | site => exact State.sortSite_chained h f
    | axis x => exact State.sortAxis_chained h x f
  | discarded e => cases p <;> exact h

theorem State.receiveLine_chained {s : State} (h : s.Chained) (p : Port) (input : List LineInput) :
    (s.receiveLine p input).Chained := by
  have hfold : ∀ (es : List RxEvent) (t : State), t.Chained → (es.foldl (State.takeRx p) t).Chained := by
    intro es
    induction es with
    | nil => exact fun _ ht => ht
    | cons e es ih => exact fun t ht => ih _ (State.takeRx_chained ht p e)
  exact hfold _ _ (h.of_roster (State.setReceiver_roster s p _))

theorem State.startSite_roster (s : State) : s.startSite.roster = s.roster := by
  unfold State.startSite
  repeat' split
  all_goals rfl

theorem State.passTime_roster (s : State) (d : Nat) : (s.passTime d).roster = s.roster := by
  obtain ⟨f, hf, he⟩ := State.passTime_eq s d
  rw [he]
  exact s.keeps_roster hf

theorem State.handExpiries_roster (s : State) : s.handExpiries.roster = s.roster := by
  rw [State.handExpiries_eq]
  rfl

theorem State.setClock_roster (s : State) (value : Nat) : (s.setClock value).roster = s.roster := by
  unfold State.setClock
  dsimp only
  rw [State.handExpiries_roster]
  split
  · exact s.passTime_roster _
  · rfl

theorem State.afterClock_chained {s : State} (h : s.Chained) : s.afterClock.Chained :=
  State.testActivation_chained (State.expireHanded_chained h)

theorem State.pulseLoad_chained {s : State} (h : s.Chained) (value : Nat) :
    (s.pulseLoad value).Chained := by
  unfold State.pulseLoad
  dsimp only
  split
  · exact h
  · refine State.afterClock_chained ?_
    exact h.of_roster (State.setClock_roster { s with time.load := none } value)

theorem State.tick_roster (s : State) : s.tick.roster = s.roster := by
  have hpass : (if s.time.mount < Config.mountTimeMax then (s.passTime 1).handExpiries else s).roster =
      s.roster := by
    split
    · rw [State.handExpiries_roster, State.passTime_roster]
    · rfl
  exact hpass

/-- A state with no record and no chain, at rest. -/
theorem State.Chained.of_empty {s : State} (queue : s.seq.queue = []) (active : s.seq.active = none)
    (shelf : s.seq.shelf = []) (chains : s.chains = []) : s.Chained := by
  have hclaims : s.roster.claims = [] := by simp [Roster.claims, State.roster, queue, active, shelf]
  refine ⟨by rw [hclaims]; exact List.nodup_nil, ?_, fun _ => by simp [State.roster, active]⟩
  rw [hclaims, show s.roster.headers = [] by simp [State.roster, chains]]
  exact .refl _

/-! ### The bodies of the requests -/

/-- A property that reads nothing of the site link stays where a request's body keeps it. -/
theorem takeRequest_of_body {P : State → Prop} {cmd : Instr} {body : List Byte → State → State × Reply}
    {s : State} (hsite : ∀ t site, P t → P { t with site }) (hbody : ∀ p t, P t → P (body p t).1)
    (h : P s) : P (takeRequest cmd body s) := by
  unfold takeRequest
  split
  · exact h
  · have hrest := hsite s { s.site with requests := ‹List Request› } h
    split
    · dsimp only
      split
      · split
        · exact hsite _ _ (hbody _ _ hrest)
        · exact hrest
      · exact hsite _ _ (hbody _ _ hrest)
    · exact h

theorem takeRequest_chained {cmd : Instr} {body : List Byte → State → State × Reply} {s : State}
    (hbody : ∀ p t, t.Chained → (body p t).1.Chained) (h : s.Chained) :
    (takeRequest cmd body s).Chained :=
  takeRequest_of_body (fun _ _ ht => ht) hbody h

/-- A request whose body leaves the roster alone. -/
theorem takeRequest_chained_of_roster {cmd : Instr} {body : List Byte → State → State × Reply}
    {s : State} (hbody : ∀ p t, (body p t).1.roster = t.roster) (h : s.Chained) :
    (takeRequest cmd body s).Chained :=
  takeRequest_chained (fun p t ht => ht.of_roster (hbody p t)) h

/-- A request whose body reads and changes nothing. -/
theorem takeRequest_chained_of_state {cmd : Instr} {body : List Byte → State → State × Reply}
    {s : State} (hbody : ∀ p t, (body p t).1 = t) (h : s.Chained) : (takeRequest cmd body s).Chained :=
  takeRequest_chained_of_roster (fun p t => by rw [hbody]) h

section
variable (p : List Byte) {s : State} (h : s.Chained)
include h

theorem withdrawTargetBody_chained : (withdrawTargetBody p s).1.Chained := by
  unfold withdrawTargetBody State.withdraw
  split
  · exact h
  · split
    · exact State.endActive_chained h _ _
    · rename_i e _ he
      exact State.departShelved_chained h (List.mem_of_find?_eq_some he) _ _
    · rename_i r _ _ hr
      exact State.retestIfHeadChanged_chained
        (State.departQueued_chained h (List.mem_of_find?_eq_some hr) _ _) _
    · exact h

theorem flushQueueBody_chained : (flushQueueBody p s).1.Chained := by
  unfold flushQueueBody
  split
  · exact h
  · exact State.departAllQueued_chained h (fun _ hr => hr) _ _

theorem runQueueBody_chained : (runQueueBody p s).1.Chained := by
  unfold runQueueBody
  split
  · exact h
  · split
    · exact h
    · exact State.testActivation_chained (by exact h)

omit h in
theorem State.setQueuedDwell_roster (s : State) (id value : Nat) :
    (s.setQueuedDwell id value).roster = s.roster := by
  have hclaim : ∀ r : TargetRecord,
      (if r.targetId = id then { r with dwell := value } else r).claim = r.claim :=
    fun r => by split <;> rfl
  simp [State.setQueuedDwell, State.roster, hclaim]

omit h in
theorem State.setShelvedDwell_roster (s : State) (id value : Nat) :
    (s.setShelvedDwell id value).roster = s.roster := by
  have hclaim : ∀ e : Running, (if e.record.targetId = id then
      { e with ctx.dwellRemaining := value * 1000 } else e).record.claim = e.record.claim :=
    fun e => by split <;> rfl
  simp [State.setShelvedDwell, State.roster, hclaim]

theorem adjustDwellBody_chained : (adjustDwellBody p s).1.Chained := by
  unfold adjustDwellBody State.adjustDwell
  split
  · exact h
  · split
    · dsimp only [accept]
      split
      · exact State.endActive_chained h _ _
      · exact h.of_roster (State.mapContext_roster _ _)
    · rename_i e _ he
      dsimp only [accept]
      split
      · exact State.departShelved_chained h (List.mem_of_find?_eq_some he) _ _
      · exact h.of_roster (State.setShelvedDwell_roster _ _ _)
    · split
      · exact h
      · exact h.of_roster (State.setQueuedDwell_roster _ _ _)
    · exact h

theorem closeChainBody_chained : (closeChainBody p s).1.Chained := by
  unfold closeChainBody State.closeChain
  split
  · exact h
  · split
    · exact h
    · split
      · exact h
      · split
        · exact h
        · exact h.of_roster (State.mapChain_roster _ _ _ (fun _ => rfl))

theorem truncateChainBody_chained : (truncateChainBody p s).1.Chained := by
  unfold truncateChainBody State.truncateChain
  split
  · exact h
  · split
    · exact h
    · split
      · exact h
      · split
        · exact h.of_roster (State.mapChain_roster _ _ _ (fun c => c.truncate_key _))
        · exact h

theorem appendSegmentsBody_chained : (appendSegmentsBody p s).1.Chained := by
  unfold appendSegmentsBody State.appendTo
  split
  · exact h
  · split
    · exact h
    · split
      · exact h
      · split
        · exact h
        · have hstored := fun id x gs => h.of_roster
            (State.mapChain_roster s id x (fun c => c.append_key gs s.time.mount s.horizon))
          dsimp only [accept]
          split
          · exact State.testActivation_chained (hstored _ _ _)
          · exact hstored _ _ _

theorem State.leaveRest_chained (hm : s.seq.motion.running = false) : s.leaveRest.Chained :=
  State.enterIdle_chained (s := { s.releaseAll.startWatches with freeIndex := s.freeIndex + 3 }) h
    (h.empty hm) _

theorem unparkBody_chained : (unparkBody p s).1.Chained := by
  unfold unparkBody
  split
  · exact h
  · split
    · exact h
    · rename_i hm
      split
      · exact h
      · exact State.leaveRest_chained h (by rw [not_not.mp hm]; rfl)

theorem parkBody_chained : (parkBody p s).1.Chained := by
  unfold parkBody
  split
  · exact h
  · split
    · exact h
    · show s.parkNow.Chained
      unfold State.parkNow
      split
      case h_5 =>
        rename_i hm
        exact State.startPark_chained h (h.empty (by rw [hm]; rfl)) _
      case h_6 | h_7 | h_8 | h_9 => exact h
      all_goals exact State.haltRun_chained h .park

theorem stopBody_chained : (stopBody p s).1.Chained := by
  unfold stopBody
  split
  · exact h
  · split
    · exact h
    · show s.stopNow.Chained
      unfold State.stopNow
      split
      case h_5 =>
        rename_i hm
        exact State.startStop_chained (s := { s with seq.parkPending := false }) h
          (h.empty (by rw [hm]; rfl)) _
      case h_6 | h_7 | h_8 | h_9 => exact h
      all_goals exact State.haltRun_chained h .stop

theorem clearAlarmBody_chained : (clearAlarmBody p s).1.Chained := by
  unfold clearAlarmBody
  split
  · exact h
  · split
    · exact h
    · rename_i hm
      split
      · exact h
      · exact State.leaveRest_chained (s := { s with cond.first := none, cond.causeSet := [] }) h
          (congrArg MotionState.running (not_not.mp hm))

omit h in
theorem State.setStack_roster (s : State) (old new : OffsetStack) :
    (s.setStack old new).roster = s.roster := by
  have hstack := s.mapContext_roster (fun c => { c with stack := new })
  unfold State.setStack State.offsetChanged
  dsimp only
  split
  · exact hstack
  · split
    · rename_i hm
      exact (State.enter_roster_running (by rw [hm]; rfl) rfl).trans hstack
    all_goals exact hstack

theorem State.stackFault_chained (i : Indicator) : (s.stackFault i).1.Chained :=
  State.raiseCondition_chained (h.of_roster (s.mapContext_roster _)) _ _ _

theorem pushOffsetBody_chained : (pushOffsetBody p s).1.Chained := by
  unfold pushOffsetBody
  split
  · exact h
  · split
    · exact h
    · dsimp only
      split
      · exact State.stackFault_chained h _
      · split
        · exact h.of_roster (State.setStack_roster _ _ _)
        · exact h

theorem popOffsetBody_chained : (popOffsetBody p s).1.Chained := by
  unfold popOffsetBody
  split
  · exact h
  · split
    · exact h
    · dsimp only
      split
      · exact State.stackFault_chained h _
      · exact h.of_roster (State.setStack_roster _ _ _)

theorem replaceTopOffsetBody_chained : (replaceTopOffsetBody p s).1.Chained := by
  unfold replaceTopOffsetBody
  split
  · exact h
  · split
    · exact h
    · dsimp only
      split
      · exact State.stackFault_chained h _
      · split
        · exact h.of_roster (State.setStack_roster _ _ _)
        · exact h

theorem clearOffsetsBody_chained : (clearOffsetsBody p s).1.Chained := by
  unfold clearOffsetsBody
  split
  · exact h
  · split
    · exact h
    · exact h.of_roster (State.setStack_roster _ _ _)

theorem startGuidingBody_chained : (startGuidingBody p s).1.Chained := by
  unfold startGuidingBody
  split
  · exact h
  · split
    · exact h
    · split
      · exact h
      · split
        · exact h
        · exact h.of_roster (State.startGuide_roster _ _)

theorem stopGuidingBody_chained : (stopGuidingBody p s).1.Chained := by
  unfold stopGuidingBody
  split
  · exact h
  · split
    · exact h
    · exact h.of_roster (State.stopGuide_roster _ _ _)

theorem clearConditionsBody_chained : (clearConditionsBody p s).1.Chained := by
  unfold clearConditionsBody
  split
  · exact h
  · split
    · exact h
    · exact h.of_roster (s.mapContext_roster (fun c => c.clearFlags _))

theorem setTimeBody_chained : (setTimeBody p s).1.Chained := by
  unfold setTimeBody
  split
  · exact h
  · dsimp only
    split
    · exact h
    · have hset := h.of_roster (s.setClock_roster (natAt p 0 8))
      exact State.afterClock_chained (by exact hset)

theorem resetControllerBody_chained : (resetControllerBody p s).1.Chained := by
  unfold resetControllerBody
  split
  · exact h
  · split
    · exact h
    · exact .of_empty rfl rfl rfl rfl

end

/-! ### Records taken in (R11, R14, R67) -/

/-- `t` is `s` with one more record, under a target_id that did not stand, and with its chains, which take
no more slots than are free. -/
structure State.Admits (s t : State) : Prop where
  intake : ∃ (r : TargetRecord) (cs : List Chain), r.targetId ∉ s.ids ∧
    t.roster.claims.Perm (r.claim :: s.roster.claims) ∧ t.chains = s.chains ++ cs ∧
    cs.map Chain.key = r.neededLanes.map (fun x => (r.targetId, x)) ∧
    loadedSlots cs ≤ freeSlots s.chains
  slot : t.seq.motion.running = false → t.seq.active = none

theorem State.Admits.chained {s t : State} (k : s.Admits t) (h : s.Chained) : t.Chained := by
  obtain ⟨⟨r, cs, habsent, hclaims, hchains, hkeys, -⟩, hslot⟩ := k
  refine Roster.Sound.admits h r.claim ?_ hclaims ?_ (fun hm => ?_)
  · rw [State.claims_ids]
    exact habsent
  · rw [show t.roster.headers = t.chains.map Chain.key from rfl, hchains, List.map_append, hkeys]
    rfl
  · exact Option.map_eq_none_iff.mpr (hslot hm)

theorem loadedSlots_append (cs ds : List Chain) :
    loadedSlots (cs ++ ds) = loadedSlots cs + loadedSlots ds := by simp [loadedSlots]

theorem State.Admits.storeFits {s t : State} (k : s.Admits t) (h : s.storeFits) : t.storeFits := by
  obtain ⟨⟨r, cs, -, -, hchains, -, hroom⟩, -⟩ := k
  unfold State.storeFits at *
  rw [hchains, loadedSlots_append]
  unfold freeSlots at hroom
  omega

theorem openChains_keys (r : TargetRecord) :
    (r.neededLanes.map (openChain r.targetId)).map Chain.key =
      r.neededLanes.map (fun x => (r.targetId, x)) := List.map_map

/-- Freshly opened chains take no slot. -/
theorem loadedSlots_openChains (r : TargetRecord) :
    loadedSlots (r.neededLanes.map (openChain r.targetId)) = 0 := by
  simp [loadedSlots, Function.comp_def, openChain, Chain.count]

theorem State.seededChains_keys (s : State) (r : TargetRecord) (seeds : List (Lane × Segment)) :
    (s.seededChains r seeds).map Chain.key = r.neededLanes.map (fun x => (r.targetId, x)) := by
  simp [State.seededChains, Function.comp_def]

/-- A seed is counted for one lane only. -/
theorem seeds_by_lane (seeds : List (Lane × Segment)) :
    (seeds.filter (fun sd => decide (sd.1 = .az))).length +
      ((seeds.filter (fun sd => decide (sd.1 = .el))).length +
        (seeds.filter (fun sd => decide (sd.1 = .rot))).length) = seeds.length := by
  induction seeds with
  | nil => rfl
  | cons sd seeds ih =>
    obtain ⟨x, g⟩ := sd
    cases x <;> simp <;> omega

/-- The chains of an opportunity take no more slots than it has seeds (R14). -/
theorem State.loadedSlots_seededChains (s : State) (r : TargetRecord) (seeds : List (Lane × Segment)) :
    loadedSlots (s.seededChains r seeds) ≤ seeds.length := by
  have hcount : loadedSlots (s.seededChains r seeds) =
      (r.neededLanes.map (fun x => (seeds.filter (fun sd => decide (sd.1 = x))).length)).sum := by
    simp only [loadedSlots, State.seededChains, List.map_map, Function.comp_def, Chain.append_count,
      List.length_map, show ∀ x, (openChain r.targetId x).count = 0 from fun _ => rfl, Nat.zero_add]
  have hall := seeds_by_lane seeds
  rw [hcount]
  unfold TargetRecord.neededLanes
  split <;> simp only [List.map_cons, List.map_nil, List.sum_cons, List.sum_nil] <;> omega

/-- What a submit request comes to: the state as it is, or a record admitted, with an activation test after
it at most. -/
def State.Intakes (s t : State) : Prop :=
  t = s ∨ ∃ u, s.Admits u ∧ (t = u ∨ t = u.retestIfHeadChanged s)

/-- Submit Target (R10, R11). -/
theorem submitTargetBody_intakes (p : List Byte) {s : State} (h : s.Chained) :
    s.Intakes (submitTargetBody p s).1 := by
  unfold submitTargetBody
  split
  · exact .inl rfl
  · split
    · exact .inl rfl
    · rename_i r _
      split
      · exact .inl rfl
      · rename_i hs
        obtain ⟨habsent, -⟩ := State.submitRefusal_none hs
        refine .inr ⟨s.admitRecord r (afterIdOf p), ⟨?_, h.empty⟩, .inr rfl⟩
        refine ⟨r, r.neededLanes.map (openChain r.targetId), habsent, ?_, rfl, openChains_keys r,
          (loadedSlots_openChains r).trans_le (Nat.zero_le _)⟩
        exact ((placeRecord_perm _ _ r).map TargetRecord.claim).append_right _

/-- The running target on the shelf (R67). -/
theorem State.pushActive_roster (s : State) : s.pushActive.roster = { s.roster with
    active := none, shelved := s.roster.active.toList ++ s.roster.shelved } := by
  have hspell := s.endSpell_roster
  rw [← hspell]
  unfold State.pushActive
  dsimp only
  split
  · rename_i ha
    simp [State.roster, ha]
  · rename_i a ha
    simp [State.roster, ha]
    rfl

theorem State.pushActive_chains (s : State) : s.pushActive.chains = s.chains := by
  obtain ⟨f, -, he⟩ := State.endSpell_eq s
  unfold State.pushActive
  dsimp only
  split <;> rw [he]

/-- A record in the slot, whatever the slot held. -/
theorem State.activate_roster (s : State) (r : TargetRecord) (p : SlewPlan) :
    (s.activate r p).roster = { s.roster with active := some r.claim, running := true } :=
  State.enter_roster _ .slewing

/-- A preemption admits the opportunity: the running target goes onto the shelf, and the opportunity takes
the slot (R67). -/
theorem State.preempted_admits {s : State} {r : TargetRecord} {cs : List Chain} (p : SlewPlan)
    (habsent : r.targetId ∉ s.ids)
    (hkeys : cs.map Chain.key = r.neededLanes.map (fun x => (r.targetId, x)))
    (hroom : loadedSlots cs ≤ freeSlots s.chains) :
    s.Admits ((State.pushActive { s with chains := s.chains ++ cs }).activate r p) := by
  have hroster := State.activate_roster (State.pushActive { s with chains := s.chains ++ cs }) r p
  rw [State.pushActive_roster] at hroster
  refine ⟨⟨r, cs, habsent, ?_, ?_, hkeys, hroom⟩, fun hm => ?_⟩
  · rw [hroster]
    exact List.perm_middle
  · exact (State.takeSlot_lists _ _ p).2.2.2.1.trans (State.pushActive_chains _)
  · cases (congrArg Roster.running hroster).symm.trans hm

/-- The seeds of an opportunity that passes its checks fit into the free slots (R13). -/
theorem State.seedRefusal_none {s : State} {seeds : List (Lane × Segment)}
    (h : s.seedRefusal seeds = none) : seeds.length ≤ freeSlots s.chains := by
  unfold State.seedRefusal at h
  split at h
  · cases h
  · omega

/-- Submit Opportunity (R13, R14, R67). -/
theorem submitOpportunityBody_intakes (p : List Byte) {s : State} (h : s.Chained) :
    s.Intakes (submitOpportunityBody p s).1 := by
  unfold submitOpportunityBody
  split
  · exact .inl rfl
  · split
    · exact .inl rfl
    · rename_i r _
      split
      · exact .inl rfl
      · rename_i seeds _
        split
        · exact .inl rfl
        · split
          · exact .inl rfl
          · rename_i hp
            rw [State.present?_iff] at hp
            split
            · exact .inl rfl
            · rename_i hseeds
              have hkeys := s.seededChains_keys r seeds
              have hroom := (s.loadedSlots_seededChains r seeds).trans (State.seedRefusal_none hseeds)
              split
              · unfold State.preempt
                split
                · exact .inl rfl
                · split
                  · exact .inl rfl
                  · dsimp only
                    split
                    · exact .inl rfl
                    · rename_i plan _
                      exact .inr ⟨_, State.preempted_admits plan hp hkeys hroom, .inl rfl⟩
              · unfold State.queueFirst
                split
                · exact .inl rfl
                · refine .inr ⟨State.setQueue { s with chains := s.chains ++ s.seededChains r seeds }
                    (r :: s.seq.queue), ⟨?_, h.empty⟩, .inr rfl⟩
                  exact ⟨r, _, hp, .refl _, rfl, hkeys, hroom⟩

theorem State.Intakes.chained {s t : State} (h : s.Chained) (k : s.Intakes t) : t.Chained := by
  rcases k with rfl | ⟨u, hu, rfl | rfl⟩
  · exact h
  · exact hu.chained h
  · exact State.retestIfHeadChanged_chained (hu.chained h) s

/-! ### The events of time (R71, R75) -/

theorem State.lapse_chained {s : State} (h : s.Chained) : s.lapse.Chained := by
  have heffect : ∀ t : State, t.Chained → t.lapseEffect.Chained := by
    intro t ht
    unfold State.lapseEffect
    split
    case h_5 =>
      rename_i hm
      exact State.startPark_chained ht (ht.empty (by rw [hm]; rfl)) _
    case h_6 | h_7 | h_8 | h_9 => exact ht
    all_goals
      dsimp only
      split
      · exact State.endActive_chained (by exact ht) _ _
      · exact ht
  exact heffect _ h

theorem State.completeStop_chained {s : State} (h : s.Chained) {p : StopPlan}
    (hp : s.stopEnded = some p) : (s.completeStop p).Chained := by
  have hm : s.seq.motion = .stopping := by
    unfold State.stopEnded at hp
    split at hp
    · assumption
    · cases hp
  have ha := h.empty (by rw [hm]; rfl)
  unfold State.completeStop
  split
  · exact State.startPark_chained h ha _
  · exact State.enterIdle_chained h ha _

/-! ### Every command keeps the headers -/

/-- What holds of every state that a command answers. -/
theorem exec_of_next {P : State → Prop} {c : Instr} {s t : State} (h : ∃ u, exec c s = .next u ∧ P u)
    (he : exec c s = .next t) : P t := by
  obtain ⟨u, hu, hp⟩ := h
  cases hu.symm.trans he
  exact hp

theorem exec_chained (c : Instr) {s : State} (h : s.Chained) : ∃ t, exec c s = .next t ∧ t.Chained := by
  cases c with
  | submitTarget =>
    exact ⟨_, rfl, takeRequest_chained (fun p _ ht => (submitTargetBody_intakes p ht).chained ht) h⟩
  | submitOpportunity =>
    exact ⟨_, rfl, takeRequest_chained (fun p _ ht => (submitOpportunityBody_intakes p ht).chained ht) h⟩
  | withdrawTarget => exact ⟨_, rfl, takeRequest_chained (fun p _ => withdrawTargetBody_chained p) h⟩
  | flushQueue => exact ⟨_, rfl, takeRequest_chained (fun p _ => flushQueueBody_chained p) h⟩
  | runQueue => exact ⟨_, rfl, takeRequest_chained (fun p _ => runQueueBody_chained p) h⟩
  | adjustDwell => exact ⟨_, rfl, takeRequest_chained (fun p _ => adjustDwellBody_chained p) h⟩
  | appendSegments => exact ⟨_, rfl, takeRequest_chained (fun p _ => appendSegmentsBody_chained p) h⟩
  | closeChain => exact ⟨_, rfl, takeRequest_chained (fun p _ => closeChainBody_chained p) h⟩
  | truncateChain => exact ⟨_, rfl, takeRequest_chained (fun p _ => truncateChainBody_chained p) h⟩
  | unpark => exact ⟨_, rfl, takeRequest_chained (fun p _ => unparkBody_chained p) h⟩
  | park => exact ⟨_, rfl, takeRequest_chained (fun p _ => parkBody_chained p) h⟩
  | stop => exact ⟨_, rfl, takeRequest_chained (fun p _ => stopBody_chained p) h⟩
  | clearAlarm => exact ⟨_, rfl, takeRequest_chained (fun p _ => clearAlarmBody_chained p) h⟩
  | pushOffset => exact ⟨_, rfl, takeRequest_chained (fun p _ => pushOffsetBody_chained p) h⟩
  | popOffset => exact ⟨_, rfl, takeRequest_chained (fun p _ => popOffsetBody_chained p) h⟩
  | replaceTopOffset => exact ⟨_, rfl, takeRequest_chained (fun p _ => replaceTopOffsetBody_chained p) h⟩
  | clearOffsets => exact ⟨_, rfl, takeRequest_chained (fun p _ => clearOffsetsBody_chained p) h⟩
  | startGuiding => exact ⟨_, rfl, takeRequest_chained (fun p _ => startGuidingBody_chained p) h⟩
  | stopGuiding => exact ⟨_, rfl, takeRequest_chained (fun p _ => stopGuidingBody_chained p) h⟩
  | clearConditions => exact ⟨_, rfl, takeRequest_chained (fun p _ => clearConditionsBody_chained p) h⟩
  | setTime => exact ⟨_, rfl, takeRequest_chained (fun p _ => setTimeBody_chained p) h⟩
  | resetController => exact ⟨_, rfl, takeRequest_chained (fun p _ => resetControllerBody_chained p) h⟩
  | readTarget => exact ⟨_, rfl, takeRequest_chained_of_state readTargetBody_state h⟩
  | readOutcome => exact ⟨_, rfl, takeRequest_chained_of_state readOutcomeBody_state h⟩
  | readCaptures => exact ⟨_, rfl, takeRequest_chained_of_state readCapturesBody_state h⟩
  | readChain => exact ⟨_, rfl, takeRequest_chained_of_state readChainBody_state h⟩
  | readTerms => exact ⟨_, rfl, takeRequest_chained_of_state readTermsBody_state h⟩
  | readOffsets => exact ⟨_, rfl, takeRequest_chained_of_state readOffsetsBody_state h⟩
  | readConditions => exact ⟨_, rfl, takeRequest_chained_of_state readConditionsBody_state h⟩
  | peekTime => exact ⟨_, rfl, takeRequest_chained_of_state peekTimeBody_state h⟩
  | unknownRequest => exact ⟨_, rfl, takeRequest_chained_of_state (fun _ _ => rfl) h⟩
  | holdQueue =>
    exact ⟨_, rfl, takeRequest_chained_of_roster (fun p t => by unfold holdQueueBody; split <;> rfl) h⟩
  | writeTerm =>
    refine ⟨_, rfl, takeRequest_chained_of_roster (fun p t => ?_) h⟩
    unfold writeTermBody
    dsimp only
    repeat' split
    all_goals rfl
  | deleteTerm =>
    refine ⟨_, rfl, takeRequest_chained_of_roster (fun p t => ?_) h⟩
    unfold deleteTermBody
    dsimp only
    repeat' split
    all_goals rfl
  | commitTerms =>
    refine ⟨_, rfl, takeRequest_chained_of_roster (fun p t => ?_) h⟩
    unfold commitTermsBody
    split
    · rfl
    · split <;> rfl
  | configureGuide =>
    exact ⟨_, rfl, takeRequest_chained_of_roster (fun p t => by unfold configureGuideBody; split <;> rfl) h⟩
  | setMasks =>
    exact ⟨_, rfl, takeRequest_chained_of_roster (fun p t => by unfold setMasksBody; split <;> rfl) h⟩
  | loadAxes =>
    refine ⟨_, rfl, takeRequest_chained_of_roster (fun p t => ?_) h⟩
    unfold loadAxesBody
    repeat' split
    all_goals rfl
  | loadLimits =>
    refine ⟨_, rfl, takeRequest_chained_of_roster (fun p t => ?_) h⟩
    unfold loadLimitsBody
    dsimp only
    repeat' split
    all_goals rfl
  | lockLimits =>
    refine ⟨_, rfl, takeRequest_chained_of_roster (fun p t => ?_) h⟩
    unfold lockLimitsBody
    repeat' split
    all_goals rfl
  | loadForwarding =>
    refine ⟨_, rfl, takeRequest_chained_of_roster (fun p t => ?_) h⟩
    unfold loadForwardingBody
    dsimp only
    repeat' split
    all_goals rfl
  | setReportDestination =>
    refine ⟨_, rfl, takeRequest_chained_of_roster (fun p t => ?_) h⟩
    unfold setReportDestinationBody
    repeat' split
    all_goals rfl
  | enableSupervision =>
    refine ⟨_, rfl, takeRequest_chained_of_roster (fun p t => ?_) h⟩
    unfold enableSupervisionBody
    repeat' split
    all_goals rfl
  | setTimeAtPulse =>
    exact ⟨_, rfl, takeRequest_chained_of_roster (fun p t => by unfold setTimeAtPulseBody; split <;> rfl) h⟩
  | readTime =>
    exact ⟨_, rfl, takeRequest_chained_of_roster (fun p t => by unfold readTimeBody; split <;> rfl) h⟩
  | readStatus =>
    exact ⟨_, rfl, takeRequest_chained_of_roster (fun p t => by unfold readStatusBody; split <;> rfl) h⟩
  | requestFrameReception f => exact ⟨_, rfl, State.receiveLine_chained h _ _⟩
  | guideFrame f => exact ⟨_, rfl, State.receiveLine_chained h _ _⟩
  | sample x f => exact ⟨_, rfl, State.receiveLine_chained h _ _⟩
  | proxyServiceFrame f => exact ⟨_, rfl, State.receiveLine_chained h _ _⟩
  | serviceReply x f => exact ⟨_, rfl, State.receiveLine_chained h _ _⟩
  | linkError p input => exact ⟨_, rfl, State.receiveLine_chained h _ _⟩
  | waitIdleReturnToHunt p =>
    refine ⟨_, rfl, ?_⟩
    split
    · exact State.receiveLine_chained h _ _
    · exact h
  | siteTransmitStart =>
    refine ⟨_, rfl, ?_⟩
    split
    · exact h.of_roster s.startSite_roster
    · exact h
  | axisTransmitStart x =>
    refine ⟨_, rfl, ?_⟩
    split <;> exact h
  | frameTransmissionEnd p => exact ⟨_, rfl, by cases p <;> exact h⟩
  | pinReset straps permit =>
    have hreset : (s.pinReset straps permit).Chained := .of_empty rfl rfl rfl rfl
    refine ⟨_, rfl, ?_⟩
    split
    · exact hreset
    · exact State.raiseAlarm_chained hreset _ _
  | permitLost => exact ⟨_, rfl, State.raiseAlarm_chained (s := { s with permit := false }) h _ _⟩
  | permitRise => exact ⟨_, rfl, h⟩
  | encoderSilent x =>
    refine ⟨_, rfl, ?_⟩
    split
    · exact State.raiseAlarm_chained h _ _
    · exact h
  | pulseEdge =>
    have hcapture : s.capturePulse.Chained := h
    refine ⟨_, rfl, ?_⟩
    split
    · exact hcapture
    · exact State.pulseLoad_chained hcapture _
  | shutterEdge e =>
    have hcapture : (s.captureEdge e).Chained := by
      refine h.of_roster (State.mapActive_roster s (fun a => ?_))
      unfold TargetRecord.addCapture
      split <;> rfl
    refine ⟨_, rfl, ?_⟩
    split
    · exact h
    · dsimp only
      split
      · exact State.raiseCondition_chained hcapture _ _ _
      · exact hcapture
  | supervisionLapse =>
    refine ⟨_, rfl, ?_⟩
    split
    · exact State.lapse_chained h
    · exact h
  | graceExpiry =>
    refine ⟨_, rfl, ?_⟩
    split
    · exact State.endActive_chained h _ _
    · exact h
  | guideWatchExpiry =>
    refine ⟨_, rfl, ?_⟩
    split
    · exact State.expireGuideWatch_chained h
    · exact h
  | guideLost =>
    refine ⟨_, rfl, ?_⟩
    split
    · exact State.endActive_chained h _ _
    · exact h
  | dwellCompletion =>
    refine ⟨_, rfl, ?_⟩
    split
    · exact State.endActive_chained h _ _
    · exact h
  | slewCompletion =>
    refine ⟨_, rfl, ?_⟩
    split
    · exact State.enter_chained (m := .settling) (by exact h) (.inl rfl)
    · exact h
  | stopCompletion =>
    refine ⟨_, rfl, ?_⟩
    split
    · exact State.completeStop_chained h ‹_›
    · exact h
  | windowExpiry id =>
    refine ⟨_, rfl, ?_⟩
    split
    · exact State.retestIfHeadChanged_chained (State.expireHanded_chained h) _
    · exact h
  | startTimeReached =>
    refine ⟨_, rfl, ?_⟩
    unfold State.takeStart
    split
    · exact State.testActivation_chained (by exact h)
    · exact h

/-! ### The slots of the Segment Store (R25) -/

/-- A store with one header each and no chain that has grown takes no more slots. -/
theorem loadedSlots_le_of_keys : ∀ {cs ds : List Chain}, (cs.map Chain.key).Nodup →
    (∀ c ∈ cs, ∃ d ∈ ds, d.key = c.key ∧ c.count ≤ d.count) → loadedSlots cs ≤ loadedSlots ds := by
  intro cs
  induction cs with
  | nil => exact fun _ _ => Nat.zero_le _
  | cons c cs ih =>
    intro ds hnd h
    obtain ⟨hc, hcs⟩ := List.nodup_cons.mp hnd
    obtain ⟨d, hd, hkey, hcount⟩ := h c List.mem_cons_self
    have hsplit : loadedSlots ds = d.count + loadedSlots (ds.erase d) :=
      (((List.perm_cons_erase hd).map Chain.count).sum_eq).trans (List.sum_cons)
    have hrest : loadedSlots cs ≤ loadedSlots (ds.erase d) := by
      refine ih hcs fun e he => ?_
      obtain ⟨f, hf, hfkey, hfcount⟩ := h e (List.mem_cons_of_mem _ he)
      refine ⟨f, (List.mem_erase_of_ne fun hfd => hc ?_).mpr hf, hfkey, hfcount⟩
      rw [← hkey, ← hfd, hfkey]
      exact List.mem_map_of_mem he
    rw [hsplit]
    exact Nat.add_le_add hcount hrest

theorem State.Leads.storeFits {s t : State} (k : s.Leads t) (ht : t.Chained) (hs : s.storeFits) :
    t.storeFits := (loadedSlots_le_of_keys ht.keys k.chains).trans hs

theorem State.Intakes.storeFits {s t : State} (h : s.Chained) (hs : s.storeFits) (k : s.Intakes t) :
    t.storeFits := by
  have ht := k.chained h
  rcases k with rfl | ⟨u, hu, rfl | rfl⟩
  · exact hs
  · exact hu.storeFits hs
  · exact (State.retestIfHeadChanged_follows u s).leads.storeFits ht (hu.storeFits hs)

/-- One chain that grows by some segments, where each header stands once. -/
theorem loadedSlots_mapChain_add {cs : List Chain} (id : Nat) (x : Lane) {f : Chain → Chain} {n : Nat}
    (hnd : (cs.map Chain.key).Nodup) (hf : ∀ c, (f c).count = c.count + n) :
    loadedSlots (mapChain cs id x f) ≤ loadedSlots cs + n := by
  induction cs with
  | nil => exact Nat.zero_le _
  | cons c cs ih =>
    obtain ⟨hc, hcs⟩ := List.nodup_cons.mp hnd
    have hcons : ∀ (d : Chain) (ds : List Chain), loadedSlots (d :: ds) = d.count + loadedSlots ds :=
      fun _ _ => rfl
    have hmap : mapChain (c :: cs) id x f =
        (if c.owner == id && c.lane == x then f c else c) :: mapChain cs id x f := rfl
    rw [hmap, hcons, hcons]
    split
    · rename_i hm
      have hothers : mapChain cs id x f = cs := by
        refine (List.map_congr_left fun d hd => ?_).trans (List.map_id cs)
        refine if_neg fun hdm => hc (List.mem_map.mpr ⟨d, hd, ?_⟩)
        simp only [Bool.and_eq_true, beq_iff_eq] at hm hdm
        simp [Chain.key, hm, hdm]
      rw [hothers, hf]
      omega
    · have := ih hcs
      omega

/-- Segments pass the checks on their chain where it is open, it has room and the store has room (R31). -/
theorem State.appendRefusal_none {s : State} {c : Chain} {gs : List Segment}
    (h : s.appendRefusal c gs = none) : gs.length ≤ freeSlots s.chains := by
  unfold State.appendRefusal at h
  split at h
  · cases h
  · split at h
    · cases h
    · split at h
      · cases h
      · omega

theorem appendSegmentsBody_storeFits (p : List Byte) {s : State} (h : s.Chained) (hs : s.storeFits) :
    (appendSegmentsBody p s).1.storeFits := by
  have hstored : ∀ id x (gs : List Segment), gs.length ≤ freeSlots s.chains →
      (s.storeSegments id x gs).storeFits := by
    intro id x gs hroom
    have hadd := loadedSlots_mapChain_add id x h.keys
      (fun c => Chain.append_count c gs s.time.mount s.horizon)
    unfold State.storeFits at *
    unfold freeSlots at hroom
    exact hadd.trans (by omega)
  have hchained := fun id x gs => h.of_roster
    (s.mapChain_roster id x (fun c => c.append_key gs s.time.mount s.horizon))
  unfold appendSegmentsBody State.appendTo
  split
  · exact hs
  · split
    · exact hs
    · split
      · exact hs
      · split
        · exact hs
        · rename_i hrefusal
          have hfits := hstored (natAt p 0 2) ‹Lane› _ (State.appendRefusal_none hrefusal)
          dsimp only [accept]
          split
          · exact (State.testActivation_follows _).leads.storeFits
              (State.testActivation_chained (hchained _ _ _)) hfits
          · exact hfits

theorem exec_storeFits {c : Instr} {s t : State} (h : s.Chained) (hs : s.storeFits)
    (he : exec c s = .next t) : t.storeFits := by
  have htake : ∀ {cmd : Instr} {body : List Byte → State → State × Reply},
      (∀ p u, u.Chained → u.storeFits → (body p u).1.Chained ∧ (body p u).1.storeFits) →
      (takeRequest cmd body s).storeFits := fun hbody =>
    (takeRequest_of_body (P := fun u => u.Chained ∧ u.storeFits) (fun _ _ hu => hu)
      (fun p u hu => hbody p u hu.1 hu.2) ⟨h, hs⟩).2
  by_cases hc : takesIn c
  · rcases hc with rfl | rfl | rfl
    · cases he
      exact htake fun p u hu hfits => have hin := submitTargetBody_intakes p hu
        ⟨hin.chained hu, hin.storeFits hu hfits⟩
    · cases he
      exact htake fun p u hu hfits => have hin := submitOpportunityBody_intakes p hu
        ⟨hin.chained hu, hin.storeFits hu hfits⟩
    · cases he
      exact htake fun p u hu hfits =>
        ⟨appendSegmentsBody_chained p hu, appendSegmentsBody_storeFits p hu hfits⟩
  · obtain ⟨u, hu, hleads⟩ := exec_leads hc s
    cases hu.symm.trans he
    exact hleads.storeFits (exec_of_next (exec_chained c h) he) hs

theorem step_chained {s t : State} (h : s.Chained) (hstep : step s = .next t) : t.Chained := by
  rcases step_command_or_tick hstep with ⟨c, q, he⟩ | rfl
  · exact exec_of_next (exec_chained c (s := { s with pending := q }) (by exact h)) he
  · exact h.of_roster s.tick_roster

theorem step_storeFits {s t : State} (h : s.Chained) (hs : s.storeFits) (hstep : step s = .next t) :
    t.storeFits := by
  rcases step_command_or_tick hstep with ⟨c, q, he⟩ | rfl
  · exact exec_storeFits (s := { s with pending := q }) h hs he
  · exact s.tick_follows.leads.storeFits (h.of_roster s.tick_roster) hs

/-- Settles O11: the roster of a state stays sound, and no step but an intake or an append lets the
slots taken grow. -/
theorem chainsMatchRecordsAndFit : Obligations.ChainsMatchRecordsAndFit :=
  ⟨fun _ _ hslot hids h hstep => (step_chained (State.chained_of hslot hids h) hstep).headersMatch,
    fun _ _ hslot hids h hfits hstep => step_storeFits (State.chained_of hslot hids h) hfits hstep⟩

/-! ## Append Segments (R31 to R33) -/

section
variable {s : State} {p : List Byte} {x : Lane} {c : Chain} {gs : List Segment} {id : Nat}

theorem appendSegmentsBody_of_valid (hx : laneOf (natAt p 2 1) = some x)
    (hl : p.length = 4 + 28 * natAt p 3 1) (hlow : 1 ≤ natAt p 3 1) (hhigh : natAt p 3 1 ≤ 4)
    (hi : natAt p 0 2 ≠ 0) :
    appendSegmentsBody p s = s.appendTo (natAt p 0 2) x (appendedSegments p) := by
  have hvalid : ¬ (p.length ≠ 4 + 28 * natAt p 3 1 ∨ natAt p 3 1 = 0 ∨ 4 < natAt p 3 1 ∨
      natAt p 0 2 = 0) := by omega
  simp only [appendSegmentsBody, hx, if_neg hvalid]

/-- Segments that pass every check on their chain (R31, steps 3 to 7). -/
theorem State.appendRefusal_of_room (hclosed : c.closed = false)
    (hcount : gs.length + c.segments.length ≤ Config.chainSize)
    (hfree : gs.length ≤ freeSlots s.chains)
    (hcheck : checkSegments s.planner.limits s.planner.axes c.lane c.ending 1 gs = none) :
    s.appendRefusal c gs = none := by
  have hfits : ¬ Config.chainSize < gs.length + c.count := Nat.not_lt.mpr hcount
  simp [State.appendRefusal, hclosed, hfits, Nat.not_lt.mpr hfree, hcheck]

/-- Accepted segments (R33), where the activation test after them changes nothing. -/
theorem State.appendTo_accepted (hc : s.namedChain id x = .ok c) (hr : s.appendRefusal c gs = none)
    (hquiet : headId s.seq.queue ≠ id ∨ s.seq.motion ≠ .idle) :
    s.appendTo id x gs = (s.storeSegments id x gs,
      okReply ([0] ++ natBytes 1 (c.append gs s.time.mount s.horizon).count ++
        natBytes 8 (c.append gs s.time.mount s.horizon).endTime ++
        natBytes 2 (freeSlots (s.storeSegments id x gs).chains))) := by
  have htest : (if headId s.seq.queue = id then (s.storeSegments id x gs).testActivation
      else s.storeSegments id x gs) = s.storeSegments id x gs := by
    rcases hquiet with hhead | hidle
    · exact if_neg hhead
    · rw [State.testActivation_silent (s := s.storeSegments id x gs) (.inl hidle), ite_self]
  simp only [State.appendTo, hc, hr, htest, accept, okReply]

theorem Chain.append_of_last {last : Segment} (h : gs.getLast? = some last) (now horizon : Nat) :
    c.append gs now horizon = { c with
      segments := c.segments ++ gs
      ending := some (segEnding last)
      refillArmed := c.refillArmed || decide (now + horizon ≤ last.finish) } := by
  simp only [Chain.append, h]

end

/-- Settles O27: the five checks pass, the last segment gives the new end, and the activation test that
follows is silent. -/
theorem appendSegmentsStores : Obligations.AppendSegmentsStores := by
  intro s r rest p x c last h hx hl hlow hhigh hi hc gs hclosed hcount hfree hcheck hlast hquiet chains
  have hbody := (appendSegmentsBody_of_valid (s := s.taken rest) hx hl hlow hhigh hi).trans
    (State.appendTo_accepted hc (State.appendRefusal_of_room hclosed hcount hfree hcheck) hquiet)
  have happend : ∀ (d : Chain) (now horizon : Nat), d.append gs now horizon = { d with
      segments := d.segments ++ gs
      ending := some (segEnding last)
      refillArmed := d.refillArmed || decide (now + horizon ≤ last.finish) } :=
    fun d => d.append_of_last hlast
  have hstored : (s.taken rest).storeSegments (natAt p 0 2) x gs =
      State.taken { s with chains } rest := by
    simp only [State.storeSegments, mapChain, happend]
    rfl
  rw [hstored, happend] at hbody
  refine exec_answers (u := { s with chains }) h rfl rfl (hbody.trans ?_)
  simp only [Chain.count, List.length_append]
  rfl

/-! ## Close Chain and Truncate Chain (R34 to R36) -/

section
variable {s : State} {p : List Byte} {x : Lane} {c : Chain} {id t : Nat}

theorem closeChainBody_of_valid (hx : laneOf (natAt p 2 1) = some x) (hl : p.length = 3)
    (hi : natAt p 0 2 ≠ 0) : closeChainBody p s = s.closeChain (natAt p 0 2) x := by
  simp [closeChainBody, hx, hl, hi]

theorem State.closeChain_started {e : ChainEnd} (hc : s.namedChain id x = .ok c)
    (he : c.ending = some e) : s.closeChain id x =
      ({ s with chains := mapChain s.chains id x (fun c => { c with closed := true }) },
        okReply (natBytes 1 c.count ++ natBytes 8 e.time)) := by
  simp only [State.closeChain, hc, he, accept, okReply]

theorem State.closeChain_unstarted (hc : s.namedChain id x = .ok c) (he : c.ending = none) :
    s.closeChain id x = (s, { status := .notReady, result := [] }) := by
  simp only [State.closeChain, hc, he, refuse]

theorem truncateChainBody_of_valid (hx : laneOf (natAt p 2 1) = some x) (hl : p.length = 11)
    (hi : natAt p 0 2 ≠ 0) :
    truncateChainBody p s = s.truncateChain (natAt p 0 2) x (natAt p 3 8) := by
  simp [truncateChainBody, hx, hl, hi]

theorem State.mayCut_of_start (hstart : ∃ g ∈ c.segments, g.start = t)
    (hactive : s.active? id ≠ none → s.time.mount + 1000000 ≤ t) : s.mayCut id c t = true := by
  have hany : c.segments.any (fun g => decide (g.start = t)) = true := by simpa using hstart
  unfold State.mayCut
  cases ha : s.active? id with
  | none => simp [hany]
  | some a => simp [hany, hactive (by simp [ha])]

theorem State.truncateChain_at (hc : s.namedChain id x = .ok c) (hcut : s.mayCut id c t = true) :
    s.truncateChain id x t =
      ({ s with chains := mapChain s.chains id x (fun c => c.truncate t) },
        okReply (natBytes 1 (c.count - (c.truncate t).count) ++ natBytes 1 (c.truncate t).count ++
          natBytes 8 t)) := by
  simp only [State.truncateChain, hc, hcut, if_true, accept, okReply]

/-- A cut parts a chain into the segments kept and the segments freed (R36). -/
theorem Chain.truncate_parts (c : Chain) (t : Nat) : c.count =
    (c.truncate t).count + (c.segments.filter (fun g => decide (t ≤ g.start))).length := by
  have hfreed : ∀ g : Segment, decide (t ≤ g.start) = !decide (g.start < t) := fun g => by
    rw [← decide_not]
    exact decide_eq_decide.mpr Nat.not_lt.symm
  rw [funext hfreed]
  exact List.length_eq_length_filter_add _

theorem Chain.truncate_ending_last {g : Segment} (h : (c.truncate t).segments.getLast? = some g) :
    (c.truncate t).ending = some { segEnding g with time := t } := by
  have hkept : (c.segments.filter (fun g => decide (g.start < t))).getLast? = some g := h
  simp only [Chain.truncate, hkept]

/-- A chain cut before its first segment ends where that segment starts (R36). -/
theorem Chain.truncate_ending_first {g : Segment} (h : (c.truncate t).segments = [])
    (hg : c.segments.head? = some g) : (c.truncate t).ending =
      some { time := t, position := 256 * g.c0, velocity := 256 * g.c1 } := by
  have hkept : c.segments.filter (fun g => decide (g.start < t)) = [] := h
  have hfreed : c.segments.filter (fun g => decide (t ≤ g.start)) = c.segments := by
    refine List.filter_eq_self.mpr fun d hd => ?_
    have := List.filter_eq_nil_iff.mp hkept d hd
    simpa using this
  simp only [Chain.truncate, hkept, hfreed, hg, List.getLast?_nil]
  rfl

end

/-- Settles O28: both requests change the named chain alone. -/
theorem closeAndTruncateChain : Obligations.CloseAndTruncateChain := by
  intro s r rest p x c hx hi hc
  refine ⟨fun e h hl he => ?_, fun h hl he => ?_, fun h hl => ?_⟩
  · exact exec_answers h rfl rfl ((closeChainBody_of_valid (s := s.taken rest) hx hl hi).trans
      (State.closeChain_started hc he))
  · exact exec_answers h rfl rfl ((closeChainBody_of_valid (s := s.taken rest) hx hl hi).trans
      (State.closeChain_unstarted hc he))
  · intro t freed hstart hactive
    have hparts : c.count = (c.truncate t).count + freed.length := c.truncate_parts t
    have hfreed : c.count - (c.truncate t).count = freed.length := by omega
    have hkept : (c.truncate t).count = c.segments.length - freed.length :=
      (Nat.sub_eq_of_eq_add hparts).symm
    have hbody := (truncateChainBody_of_valid (s := s.taken rest) hx hl hi).trans
      (State.truncateChain_at (t := t) hc (State.mayCut_of_start hstart hactive))
    rw [hfreed, hkept] at hbody
    exact ⟨exec_answers h rfl rfl hbody, rfl, rfl, rfl, fun g hg => Chain.truncate_ending_last hg,
      fun g hg hhead => Chain.truncate_ending_first hg hhead⟩

/-! ## Changes of state among the composing states, exactly (R47, R56, R58 to R60, R124)

The model composes these from the general entry to a motion state. Here each is the one update that the
statements about a sample name: `State.caused`, `State.tracked` and `State.lowered`. -/

theorem State.usedGuideFree_eq (s : State) : s.usedGuideFree =
    { s with freeIndex := if s.guide = none then s.freeIndex + 1 else s.freeIndex } := by
  unfold State.usedGuideFree
  cases s.guide <;> rfl

section
variable {s : State} {a : Running}

/-- What the entry to TRACKING does, after its report (R56, R138). -/
theorem State.enterTracking_of_active (ha : s.seq.active = some a) :
    State.enterTracking { s with
      seq.motion := .tracking
      rep := offerReport s.rep (.phaseChange s.seq.motion .tracking) s.time.mount a.record.targetId } =
    s.tracked a := by
  unfold State.enterTracking State.tracked
  simp only [State.mapStats_eq, State.mapActive, ha, Option.map_some]
  split
  · simp only [State.startAcquiring, State.usedGuideFree_eq, State.mapGuide_eq, State.mapActive,
      Option.map_some, State.reportGuide, State.report]
    rfl
  · rfl

/-- The spell's end on the active target (R59). -/
theorem State.endSpell_of_active (ha : s.seq.active = some a) :
    s.endSpell = { s with
      seq.active := some { a with record := s.leavingRecord a }, seq.spell := none } := by
  unfold State.endSpell State.leavingRecord
  cases hs : s.seq.spell with
  | none =>
    dsimp only [Option.map_none, Option.getD_none, Nat.add_zero]
    rw [← ha, ← hs]
  | some sp =>
    simp only [State.mapStats_eq, State.mapActive, ha, Option.map_some]
    rfl

/-- A cause added (R58, R59). -/
theorem State.addCause_eq (s : State) (c : DegradeCause) (x : Lane) : s.addCause c x = s.caused c x := by
  unfold State.addCause State.caused
  dsimp only
  split
  · rename_i h
    simp only [State.enter, State.leaveMotion, State.report, h, decide_true, if_true]
    rfl
  · rename_i h
    simp only [h, decide_false, Bool.false_eq_true, if_false]

/-- TRACKING entered out of SETTLING (R56, R124). -/
theorem State.enter_tracking_of_settling (ha : s.seq.active = some a) (hm : s.seq.motion = .settling) :
    s.enter .tracking = State.tracked { s with servo.settle := none } a := by
  rw [← State.enterTracking_of_active (s := { s with servo.settle := none }) ha]
  simp only [State.enter, State.leaveMotion, State.report, State.activeId, hm, ha]

/-- DEGRADED entered out of SETTLING (R58, R59, R124). -/
theorem State.enter_degraded_of_settling (ha : s.seq.active = some a) (hm : s.seq.motion = .settling) :
    s.enter .degraded = { s with
      servo.settle := none
      seq.motion := .degraded
      seq.spell := some { start := s.time.mount, underrunSeen := s.servo.causes.has .underrunHold }
      rep := offerReport s.rep (.phaseChange .settling .degraded) s.time.mount a.record.targetId } := by
  simp only [State.enter, State.leaveMotion, State.report, State.activeId, hm, ha]

/-- TRACKING entered out of DEGRADED (R56, R59, R60). -/
theorem State.enter_tracking_of_degraded (ha : s.seq.active = some a) (hm : s.seq.motion = .degraded) :
    s.enter .tracking = State.tracked { s with
      seq.active := some { a with record := s.leavingRecord a }, seq.spell := none }
      { a with record := s.leavingRecord a } := by
  rw [← State.enterTracking_of_active (a := { a with record := s.leavingRecord a }) rfl]
  simp only [State.enter, State.leaveMotion, State.report, State.activeId, hm,
    State.endSpell_of_active ha]

/-- SETTLING entered out of DEGRADED (R59, R60, R124). -/
theorem State.enter_settling_of_degraded (ha : s.seq.active = some a) (hm : s.seq.motion = .degraded) :
    s.enter .settling = { s with
      seq.motion := .settling
      seq.active := some { a with record := s.leavingRecord a }
      seq.spell := none
      servo.settle := some { beginTime := s.time.mount, seen := .const false }
      rep := offerReport s.rep (.phaseChange .degraded .settling) s.time.mount a.record.targetId } := by
  simp only [State.enter, State.leaveMotion, State.report, State.activeId, hm,
    State.endSpell_of_active ha]
  rfl

/-- The contributions to a cause replaced by fewer (R59, R60). -/
theorem State.lowerCause_eq (ha : s.seq.active = some a) (c : DegradeCause) (l : Lanes Bool) :
    s.lowerCause c l = s.lowered a (s.servo.causes.put c l) := by
  unfold State.lowerCause State.lowered
  simp only [Bool.not_eq_true']
  split
  · rename_i h
    split
    · exact State.enter_settling_of_degraded (s := { s with
        servo.causes := s.servo.causes.put c l }) ha h.1
    · exact State.enter_tracking_of_degraded (s := { s with
        servo.causes := s.servo.causes.put c l }) ha h.1
  · rfl

/-- An axis's contribution to a cause removed (R60). -/
theorem State.removeCause_eq (ha : s.seq.active = some a) (c : DegradeCause) (x : Lane) :
    s.removeCause c x = if (s.servo.causes.get c).get x then
      s.lowered a (s.servo.causes.put c ((s.servo.causes.get c).set x false)) else s := by
  unfold State.removeCause
  rw [State.lowerCause_eq ha]

end

/-! ## The steps of a sample, one by one (R118)

An equation per step and case. The target that a step ends is left to `State.endActiveFrom_ended`. -/

section
variable {s : State} {x : Lane} {a : Running}

/-! ### Steps 1 and 2: a sample that raises no alarm (R116, R117) -/

theorem State.checkDrive_quiet {v : SampleFields} (hf : v.fault = false) (hl : v.limitSwitch = false)
    (hb : s.beyondHard x v = false) : s.checkDrive x v = s := by
  simp [State.checkDrive, hf, hl, hb]

/-- A sample that raises no alarm goes through steps 3 to 11 from its record. -/
theorem exec_sample_heard {f : Frame} {v : SampleFields} (h : s.heard x f v) :
    exec (.sample x f) s = .next
      ((((s.recordSample x v).driveSteps x f.tag).1.errorStep x v
        ((s.recordSample x v).driveSteps x f.tag).2).telemetryStep x) := by
  obtain ⟨hrx, hdest, hsrc, hkind, hv, hf, hl, hb⟩ := h
  rw [exec_sample hrx hdest hsrc hkind hv]
  unfold State.takeSample
  rw [State.checkDrive_quiet (s := s.recordSample x v) hf hl hb]

/-- Steps 3 to 9 place the SETPOINT that steps 6 to 8 give (R130). -/
theorem State.driveSteps_of_command (tag : Byte) {t : State} {p : Option Setpoint}
    (h : (s.runningSteps x (s.time.mount + (s.axis x).lead)).1.commandStep x
      (s.time.mount + (s.axis x).lead) (s.runningSteps x (s.time.mount + (s.axis x).lead)).2 = (t, p)) :
    s.driveSteps x tag = (t.placeSetpoint x tag p, p.any (·.hold)) := by
  unfold State.driveSteps
  dsimp only
  rw [h]

theorem State.placeSetpoint_some (s : State) (x : Lane) (tag : Byte) (c : Setpoint) :
    s.placeSetpoint x tag (some c) = s.commanding x tag c.position c.velocity (flagByte c.hold) := rfl

/-! ### Occurrences of conditions (R148) -/

/-- The running target with a condition's flag set. -/
def Running.withFlag (a : Running) (bit : Nat) : Running :=
  { a with ctx.flags := a.ctx.flags ||| (1 <<< bit) }

theorem State.flagged_active (s : State) (a : Running) (c : Condition) (q : Byte) (n : Nat) :
    (s.flagged a c q n).seq.active = some (a.withFlag c.bit) := rfl

theorem State.occur_masked (ha : s.seq.active = some a) {c : Condition} (hm : marks s.cond.mask c = true) :
    s.occur c x = (s.flagged a c (axisByte (some x)) 0, false) := by
  unfold State.occur
  rw [State.raiseCondition_masked _ _ (.inl hm), State.flagCondition_eq_flagged ha, hm]
  rfl

theorem State.occur_unmasked (ha : s.seq.active = some a) {c : Condition}
    (hm : marks s.cond.mask c = false) : s.occur c x =
      ((s.flagged a c (axisByte (some x)) 0).endActive .faulted (.condition c), true) := by
  unfold State.occur
  rw [State.raiseCondition_unmasked _ _ hm (by rw [ha]; rfl), State.flagCondition_eq_flagged ha, hm]
  rfl

/-- A target that its own condition ends (R20, R64, R148). -/
theorem State.flagged_ended (s : State) (a : Running) (c : Condition) (q : Byte) (n : Nat) :
    (s.flagged a c q n).ended ((s.flagged a c q n).endActive .faulted (.condition c))
      (a.withFlag c.bit) .faulted (.condition c) := State.endActiveFrom_ended rfl _ _ _

theorem State.occurLimit_masked (ha : s.seq.active = some a)
    (hm : marks s.cond.mask .limitApproach = true) :
    s.occurLimit x = (s.flagged a .limitApproach (axisByte (some x)) 0, false) := by
  unfold State.occurLimit
  rw [State.flagCondition_eq_flagged ha, hm]
  rfl

theorem State.occurLimit_unmasked (ha : s.seq.active = some a)
    (hm : marks s.cond.mask .limitApproach = false) :
    s.occurLimit x = ((s.flagged a .limitApproach (axisByte (some x)) 0).endActiveFrom
      ((s.flagged a .limitApproach (axisByte (some x)) 0).clampedPresent x) .faulted
      (.condition .limitApproach), true) := by
  unfold State.occurLimit
  rw [State.flagCondition_eq_flagged ha, hm]
  rfl

/-! ### Steps 3 to 5 (R39 to R44, R112, R150) -/

variable {t : Nat}

theorem State.runningSteps_rest (hm : s.seq.motion.running = false) : s.runningSteps x t = (s, false) := by
  simp [State.runningSteps, hm]

theorem State.runningSteps_pending (ha : s.seq.active = some a) (hm : s.seq.motion.running = true)
    {c : Condition} (hc : pendingFault a.ctx.flags s.cond.mask = some c) :
    s.runningSteps x t = (s.endActive .faulted (.condition c), true) := by
  simp [State.runningSteps, State.evaluateSample, hm, ha, hc]

/-- The running target with a lane's blend advanced (R112). -/
def State.blended (s : State) (a : Running) (x : Lane) : State :=
  { s with
    seq.active := some { a with ctx := a.ctx.advance x (s.axis x).offsetRate s.time.mount } }

theorem State.runningSteps_steady (ha : s.seq.active = some a) (hm : s.seq.motion.running = true)
    (hc : pendingFault a.ctx.flags s.cond.mask = none) :
    s.runningSteps x t = (s.blended a x).evaluateLane x t := by
  simp only [State.runningSteps, State.evaluateSample, hm, ha, hc, State.mapContext_eq, State.mapActive,
    if_true, Bool.false_eq_true, if_false, Option.map_some]
  rfl

theorem State.evaluateLane_absent (ha : s.seq.active = some a)
    (hc : findChain s.chains a.record.targetId x = none) : s.evaluateLane x t = (s, false) := by
  simp only [State.evaluateLane, ha, hc]

/-- A lane's chain with its ended segments gone (R39, R40). -/
def State.retired (s : State) (id : Nat) (x : Lane) (t : Nat) : State :=
  { s with chains := mapChain s.chains id x (fun c => c.retire t) }

variable {c : Chain}

theorem State.evaluateLane_slewing (ha : s.seq.active = some a)
    (hc : findChain s.chains a.record.targetId x = some c) (hm : s.seq.motion.composing = false) :
    s.evaluateLane x t =
      ((s.retired a.record.targetId x t).refillTest a.record.targetId x, false) := by
  simp only [State.evaluateLane, ha, hc, hm, Bool.false_eq_true, if_false]
  rfl

theorem State.evaluateLane_composing (ha : s.seq.active = some a)
    (hc : findChain s.chains a.record.targetId x = some c) (hm : s.seq.motion.composing = true) :
    s.evaluateLane x t =
      if ((s.retired a.record.targetId x t).evaluateChain x (c.retire t) t).2 then
        (s.retired a.record.targetId x t).evaluateChain x (c.retire t) t
      else (((s.retired a.record.targetId x t).evaluateChain x (c.retire t) t).1.refillTest
        a.record.targetId x, false) := by
  simp only [State.evaluateLane, ha, hc, hm, if_true]
  rfl

theorem Chain.crossRead_of_none (h : c.valueAt t = none) :
    c.crossRead t = { pos := (c.ending.map (·.position)).getD 0, vel := 0 } := by
  simp only [Chain.crossRead, h]

/-- A masked underrun holds the lane where its chain ends (R43, R44, R58). -/
theorem State.evaluateChain_masked (ha : s.seq.active = some a) (hv : c.valueAt t = none)
    (hm : marks s.cond.mask .underrun = true) : s.evaluateChain x c t =
      (((s.flagged a .underrun (axisByte (some x)) 0).caused .underrunHold x).holdLane x
        (some ((c.ending.map (·.position)).getD 0)), false) := by
  unfold State.evaluateChain
  rw [hv]
  dsimp only
  rw [State.occur_masked ha hm, State.addCause_eq, Chain.crossRead_of_none hv]
  rfl

theorem State.evaluateChain_unmasked (ha : s.seq.active = some a) (hv : c.valueAt t = none)
    (hm : marks s.cond.mask .underrun = false) : s.evaluateChain x c t =
      ((s.flagged a .underrun (axisByte (some x)) 0).endActive .faulted (.condition .underrun), true) := by
  unfold State.evaluateChain
  rw [hv]
  dsimp only
  rw [State.occur_unmasked ha hm]
  rfl

/-- A value ends the lane's hold, and its cause where the chain covers the time (R43, R44, R60). -/
theorem State.evaluateChain_valued (hv : c.valueAt t ≠ none) : s.evaluateChain x c t =
    (if c.covers t then (s.holdLane x none).removeCause .underrunHold x else s.holdLane x none,
      false) := by
  obtain ⟨m, hm⟩ := Option.ne_none_iff_exists'.mp hv
  simp only [State.evaluateChain, hm]

/-- REFILL_WANTED once, when the end is nearer than the horizon (R41). -/
theorem State.refillTest_wanted {id : Nat} (hc : findChain s.chains id x = some c) {e : ChainEnd}
    (hclosed : c.closed = false) (harmed : c.refillArmed = true) (he : c.ending = some e)
    (hnear : e.time < s.time.mount + s.horizon) : s.refillTest id x = { s with
      chains := mapChain s.chains id x (fun c => { c with refillArmed := false })
      rep := offerReport s.rep (.refillWanted x e.time) s.time.mount id } := by
  unfold State.refillTest
  rw [hc]
  dsimp only
  rw [if_pos ⟨hclosed, harmed, by rw [he, Option.any_some, decide_eq_true_iff]; exact hnear⟩, he]
  rfl

theorem State.refillTest_quiet {id : Nat} (hc : findChain s.chains id x = some c)
    (hq : c.closed = true ∨ c.refillArmed = false ∨ c.ending = none ∨
      ∃ e, c.ending = some e ∧ s.time.mount + s.horizon ≤ e.time) : s.refillTest id x = s := by
  unfold State.refillTest
  rw [hc]
  dsimp only
  refine if_neg fun ⟨hclosed, harmed, hnear⟩ => ?_
  rcases hq with h | h | h | ⟨e, h, hfar⟩
  · exact absurd (hclosed.symm.trans h) (by decide)
  · exact absurd (harmed.symm.trans h) (by decide)
  · rw [h] at hnear
    cases hnear
  · rw [h] at hnear
    rw [Option.any_some, decide_eq_true_iff] at hnear
    exact absurd hnear (Nat.not_lt.mpr hfar)

/-! ### Steps 6 to 8 (R93, R119 to R122) -/

variable {m : Motion}

theorem countInRange_iff (r : AxisRecord) (angle : Int) : countInRange r angle = true ↔
    r.countMin ≤ countOf r angle ∧ countOf r angle ≤ r.countMax := by
  simp [countInRange]

theorem State.convert_clear (hfits : countInRange (s.axis x) m.pos = true)
    (hg : s.guarded x m.pos = false) : s.convert x m =
      { position := countOf (s.axis x) m.pos, velocity := velocityCounts (s.axis x) m.vel
        hold := false } := by
  simp [State.convert, hfits, hg]

theorem State.convert_held (h : countInRange (s.axis x) m.pos = false ∨ s.guarded x m.pos = true) :
    s.convert x m =
      { position := clampInt (s.axis x).countMin (s.axis x).countMax (countOf (s.axis x) m.pos)
        velocity := 0, hold := true } := by
  rcases h with h | h <;> simp [State.convert, h]

theorem State.convertStep_rest (hm : s.seq.motion.running = false) :
    s.convertStep x t m = (s, some (s.convert x m)) := if_pos hm

theorem State.convertStep_fits (hm : s.seq.motion.running = true)
    (hfits : countInRange (s.axis x) m.pos = true) :
    s.convertStep x t m = (s.removeCause .rangeHold x, some (s.convert x m)) := by
  simp [State.convertStep, hm, hfits]

theorem State.convertStep_masked (ha : s.seq.active = some a) (hm : s.seq.motion.running = true)
    (hfits : countInRange (s.axis x) m.pos = false) (hmask : marks s.cond.mask .range = true) :
    s.convertStep x t m = ((s.flagged a .range (axisByte (some x)) 0).caused .rangeHold x,
      some (s.convert x m)) := by
  simp [State.convertStep, hm, hfits, State.occur_masked ha hmask, State.addCause_eq]

theorem State.convertStep_unmasked (ha : s.seq.active = some a) (hm : s.seq.motion.running = true)
    (hfits : countInRange (s.axis x) m.pos = false) (hmask : marks s.cond.mask .range = false) :
    s.convertStep x t m = State.commandAfterFault
      ((s.flagged a .range (axisByte (some x)) 0).endActive .faulted (.condition .range)) x t := by
  simp [State.convertStep, hm, hfits, State.occur_unmasked ha hmask]

theorem State.outsideSoft_iff : s.outsideSoft x m = true ↔
    m.pos < 256 * (s.limit x).softMin ∨ 256 * (s.limit x).softMax < m.pos := by
  unfold State.outsideSoft
  rw [Bool.or_eq_true, decide_eq_true_iff, decide_eq_true_iff]
  rfl

theorem State.softStep_plan (hm : s.seq.motion.composing = false) :
    s.softStep x t m = s.convertStep x t m := if_pos hm

theorem State.softStep_inside (hm : s.seq.motion.composing = true) (ho : s.outsideSoft x m = false) :
    s.softStep x t m = (s.removeCause .limitClamp x).convertStep x t m := by
  simp [State.softStep, hm, ho]

theorem State.softStep_masked (ha : s.seq.active = some a) (hm : s.seq.motion.composing = true)
    (ho : s.outsideSoft x m = true) (hmask : marks s.cond.mask .limitApproach = true) :
    s.softStep x t m = ((s.flagged a .limitApproach (axisByte (some x)) 0).caused .limitClamp x
      ).convertStep x t (clampSoft (s.limit x) m) := by
  simp [State.softStep, hm, ho, State.occurLimit_masked ha hmask, State.addCause_eq]

theorem State.softStep_unmasked (ha : s.seq.active = some a) (hm : s.seq.motion.composing = true)
    (ho : s.outsideSoft x m = true) (hmask : marks s.cond.mask .limitApproach = false) :
    s.softStep x t m = State.commandAfterFault
      ((s.flagged a .limitApproach (axisByte (some x)) 0).endActiveFrom
        ((s.flagged a .limitApproach (axisByte (some x)) 0).clampedPresent x) .faulted
        (.condition .limitApproach)) x t := by
  simp [State.softStep, hm, ho, State.occurLimit_unmasked ha hmask]

theorem State.commandStep_of_some (h : s.commandedAt x t = some m) :
    s.commandStep x t false = s.softStep x t m := by
  simp [State.commandStep, h]

theorem State.commandStep_of_none (h : s.commandedAt x t = none) :
    s.commandStep x t false = (s, none) := by
  simp [State.commandStep, h]

end

/-! ### Step 10 (R116, R123 to R126) -/

section
variable {s : State} {x : Lane} {a : Running} {l : LatestSample} {c e : Int} {braked hold : Bool}

/-- The latest-sample record with what step 10 writes into it (R116, R123). -/
def State.compared (s : State) (x : Lane) (l : LatestSample) (c : Int) (error : Option Int)
    (hold : Bool) : State :=
  { s with
    servo.latest := s.servo.latest.set x
      (some { l with commanded := some c, error, holdMark := hold }) }

/-- The running target with its max_error raised (R3, R123). -/
def State.peaked (s : State) (a : Running) (x : Lane) (e : Int) : State :=
  { s with seq.active := some { a with
      record.stats.maxError := a.record.stats.maxError.set x
        (max (a.record.stats.maxError.get x) (wholeMas e).natAbs) } }

theorem State.raiseMaxError_eq (ha : s.seq.active = some a) : s.raiseMaxError x e = s.peaked a x e := by
  simp only [State.raiseMaxError, State.mapStats_eq, State.mapActive, ha, Option.map_some]
  rfl

theorem State.errorStep_unmeasured {v : SampleFields} (hl : s.servo.latest.get x = some l)
    (hc : s.commandedThen x (s.time.mount - v.age) = some c) (haxes : s.planner.axes ≠ none)
    (hp : s.seq.motion ≠ .parked) (hal : s.seq.motion ≠ .alarm) (hm : l.measured = none) :
    s.errorStep x v hold = s.compared x l c none hold := by
  have hloaded : s.planner.axes.isNone = false := Option.isNone_eq_false_iff.mpr
    (Option.isSome_iff_ne_none.mpr haxes)
  simp [State.errorStep, hp, hal, hloaded, hl, hc, hm, followingError, State.mapLatest, State.compared]

theorem State.errorStep_measured {v : SampleFields} {angle : Int} (hl : s.servo.latest.get x = some l)
    (hc : s.commandedThen x (s.time.mount - v.age) = some c) (haxes : s.planner.axes ≠ none)
    (hp : s.seq.motion ≠ .parked) (hal : s.seq.motion ≠ .alarm) (hm : l.measured = some angle) :
    s.errorStep x v hold =
      (s.compared x l c (some (c - 256 * angle)) hold).errorTests x (c - 256 * angle) v.braked := by
  have hloaded : s.planner.axes.isNone = false := Option.isNone_eq_false_iff.mpr
    (Option.isSome_iff_ne_none.mpr haxes)
  simp [State.errorStep, hp, hal, hloaded, hl, hc, hm, followingError, State.mapLatest, State.compared,
    unitsOf, Config.unitsPerMas]

/-- Outside the composing states and PARKING there is no test (R124 to R126). -/
theorem State.errorTests_none (h : s.seq.motion ∈ [.idle, .slewing, .stopping]) :
    s.errorTests x e braked = s := by
  simp only [List.mem_cons, List.not_mem_nil, or_false] at h
  unfold State.errorTests
  rcases h with h | h | h <;> rw [h]

theorem State.errorTests_parking (h : s.seq.motion = .parking) :
    s.errorTests x e braked = s.parkTest := by
  simp only [State.errorTests, h]

theorem State.errorTests_settling (ha : s.seq.active = some a) (h : s.seq.motion = .settling) :
    s.errorTests x e braked = (s.peaked a x e).settleTest x e braked := by
  simp only [State.errorTests, h, State.raiseMaxError_eq ha]

theorem State.errorTests_tracking (ha : s.seq.active = some a) (h : s.seq.motion = .tracking) :
    s.errorTests x e braked = (s.peaked a x e).trackTest x e := by
  simp only [State.errorTests, h, State.raiseMaxError_eq ha]

theorem State.errorTests_degraded (ha : s.seq.active = some a) (h : s.seq.motion = .degraded) :
    s.errorTests x e braked = if s.servo.causes.trackError.any then
      (s.peaked a x e).recoverTest x e braked else s.peaked a x e := by
  simp only [State.errorTests, h, State.raiseMaxError_eq ha]
  rfl

/-! The settle test (R56, R124) -/

/-- A measurement begun anew at a sample. -/
def State.anew (s : State) : Measurement := { beginTime := s.time.mount, seen := .const false }

variable {m : Measurement}

theorem State.settleTest_late (hs : s.servo.settle = some m)
    (hlate : 256 * (s.axis x).settleTol < e.natAbs ∨ braked = true) :
    s.settleTest x e braked = { s with servo.settle := some s.anew } := by
  simp only [State.settleTest, hs, if_pos hlate]
  rfl

theorem State.settleTest_waits (hs : s.servo.settle = some m)
    (hin : ¬ (256 * (s.axis x).settleTol < e.natAbs ∨ braked = true))
    (hdone : ¬ ((m.seen.set x true).all = true ∧
      m.beginTime + s.planner.globals.settleTime * 1000 ≤ s.time.mount)) :
    s.settleTest x e braked = { s with servo.settle := some { m with seen := m.seen.set x true } } := by
  simp only [State.settleTest, hs, if_neg hin, if_neg hdone]

theorem State.settleTest_done (hs : s.servo.settle = some m)
    (hin : ¬ (256 * (s.axis x).settleTol < e.natAbs ∨ braked = true))
    (hdone : (m.seen.set x true).all = true ∧
      m.beginTime + s.planner.globals.settleTime * 1000 ≤ s.time.mount) :
    s.settleTest x e braked =
      State.enter { s with servo.settle := some { m with seen := m.seen.set x true } }
        (if s.servo.causes.isEmpty then .tracking else .degraded) := by
  simp only [State.settleTest, hs, if_neg hin, if_pos hdone]

theorem State.settleTest_tracks (ha : s.seq.active = some a) (hm : s.seq.motion = .settling)
    (hs : s.servo.settle = some m)
    (hin : ¬ (256 * (s.axis x).settleTol < e.natAbs ∨ braked = true))
    (hdone : (m.seen.set x true).all = true ∧
      m.beginTime + s.planner.globals.settleTime * 1000 ≤ s.time.mount)
    (hc : s.servo.causes.isEmpty = true) :
    s.settleTest x e braked = State.tracked { s with servo.settle := none } a := by
  rw [State.settleTest_done hs hin hdone, if_pos hc]
  exact State.enter_tracking_of_settling (s := { s with servo.settle := some _ }) ha hm

theorem State.settleTest_degrades (ha : s.seq.active = some a) (hm : s.seq.motion = .settling)
    (hs : s.servo.settle = some m)
    (hin : ¬ (256 * (s.axis x).settleTol < e.natAbs ∨ braked = true))
    (hdone : (m.seen.set x true).all = true ∧
      m.beginTime + s.planner.globals.settleTime * 1000 ≤ s.time.mount)
    (hc : s.servo.causes.isEmpty = false) :
    s.settleTest x e braked = { s with
      servo.settle := none
      seq.motion := .degraded
      seq.spell := some { start := s.time.mount, underrunSeen := s.servo.causes.has .underrunHold }
      rep := offerReport s.rep (.phaseChange .settling .degraded) s.time.mount a.record.targetId } := by
  rw [State.settleTest_done hs hin hdone, if_neg (by rw [hc]; decide)]
  exact State.enter_degraded_of_settling (s := { s with servo.settle := some _ }) ha hm

/-! The track and recover tests (R60, R125) -/

theorem State.trackTest_within (h : ¬ 256 * (s.axis x).trackTol < e.natAbs) : s.trackTest x e = s := if_neg h

theorem State.trackTest_masked (ha : s.seq.active = some a) (h : 256 * (s.axis x).trackTol < e.natAbs)
    (hm : marks s.cond.mask .trackError = true) : s.trackTest x e =
      { (s.flagged a .trackError (axisByte (some x)) 0).caused .trackError x with
        servo.recover := some s.anew } := by
  simp only [State.trackTest, if_pos h, State.occur_masked ha hm, State.addCause_eq, Bool.false_eq_true,
    if_false]
  rfl

theorem State.trackTest_unmasked (ha : s.seq.active = some a) (h : 256 * (s.axis x).trackTol < e.natAbs)
    (hm : marks s.cond.mask .trackError = false) : s.trackTest x e =
      (s.flagged a .trackError (axisByte (some x)) 0).endActive .faulted (.condition .trackError) := by
  simp only [State.trackTest, if_pos h, State.occur_unmasked ha hm, if_true]

theorem State.recoverTest_above (hr : s.servo.recover = some m)
    (h : 256 * (s.axis x).trackTol < e.natAbs) : s.recoverTest x e braked =
      State.caused { s with servo.recover := some s.anew } .trackError x := by
  simp only [State.recoverTest, hr, h, decide_true, Bool.true_or, if_true, State.addCause_eq]
  rfl

theorem State.recoverTest_braked (hr : s.servo.recover = some m)
    (h : ¬ 256 * (s.axis x).trackTol < e.natAbs) :
    s.recoverTest x e true = { s with servo.recover := some s.anew } := by
  simp only [State.recoverTest, hr, h, decide_false, Bool.or_true, if_true, Bool.false_eq_true, if_false]
  rfl

theorem State.recoverTest_waits (hr : s.servo.recover = some m)
    (h : ¬ 256 * (s.axis x).trackTol < e.natAbs)
    (hdone : ¬ ((m.seen.set x true).all = true ∧
      m.beginTime + s.planner.globals.recoverTime * 1000 ≤ s.time.mount)) :
    s.recoverTest x e false = { s with servo.recover := some { m with seen := m.seen.set x true } } := by
  simp only [State.recoverTest, hr, h, decide_false, Bool.or_false, Bool.false_eq_true, if_false,
    if_neg hdone]

theorem State.recoverTest_done (ha : s.seq.active = some a) (hr : s.servo.recover = some m)
    (h : ¬ 256 * (s.axis x).trackTol < e.natAbs)
    (hdone : (m.seen.set x true).all = true ∧
      m.beginTime + s.planner.globals.recoverTime * 1000 ≤ s.time.mount) :
    s.recoverTest x e false = State.lowered { s with servo.recover := none } a
      { s.servo.causes with trackError := .const false } := by
  simp only [State.recoverTest, hr, h, decide_false, Bool.or_false, Bool.false_eq_true, if_false,
    if_pos hdone]
  exact State.lowerCause_eq (s := { s with servo.recover := none }) ha _ _

/-! The park completion test (R71, R126) -/

theorem State.atPark_iff : s.atPark x = true ↔ ∃ l m, s.servo.latest.get x = some l ∧ l.braked = false ∧
    l.measured = some m ∧ (m - (s.axis x).parkAngle).natAbs ≤ (s.axis x).settleTol := by
  unfold State.atPark
  cases s.servo.latest.get x with
  | none => simp
  | some l => cases hm : l.measured <;> simp [hm]

theorem allLanes_iff (f : Lane → Bool) : allLanes.all f = true ↔ ∀ y, f y = true := by
  simp only [allLanes, List.all_cons, List.all_nil, Bool.and_true, Bool.and_eq_true]
  exact ⟨fun ⟨haz, hel, hrot⟩ y => by cases y <;> assumption, fun h => ⟨h _, h _, h _⟩⟩

theorem State.parkTest_arrived {p : SlewPlan} (hm : s.seq.motion = .parking)
    (hp : s.planner.current = .park p) (harr : p.arrival ≤ s.time.mount)
    (hall : allLanes.all s.atPark = true) : s.parkTest = State.moved
      { s with
        planner.current := .none
        servo.watch := .const none
        ports := .of (fun y => { s.ports.get y with
          setpoint := none, control := some (brakeFrame (s.axis y).node) }) } .parked := by
  simp only [State.parkTest, hp, if_pos (And.intro harr hall)]
  exact State.enter_moved (by decide) (fun h => absurd (hm.symm.trans h) (by decide))
    (fun h => absurd (hm.symm.trans h) (by decide))

theorem State.parkTest_waits {p : SlewPlan} (hp : s.planner.current = .park p)
    (h : ¬ (p.arrival ≤ s.time.mount ∧ allLanes.all s.atPark = true)) : s.parkTest = s := by
  simp only [State.parkTest, hp, if_neg h]

/-! ### Step 11 (R127) -/

/-- The telemetry count of an axis set. -/
def State.counted (s : State) (x : Lane) (n : Nat) : State :=
  { s with servo.telemetryCount := s.servo.telemetryCount.set x n }

theorem State.telemetryStep_off (h : (s.axis x).decimation = 0) : s.telemetryStep x = s := if_pos h

theorem State.telemetryStep_counts (h : (s.axis x).decimation ≠ 0)
    (hn : s.servo.telemetryCount.get x + 1 < (s.axis x).decimation) :
    s.telemetryStep x = s.counted x (s.servo.telemetryCount.get x + 1) := by
  simp only [State.telemetryStep, if_neg h, if_pos hn]
  rfl

theorem State.telemetryStep_due (h : (s.axis x).decimation ≠ 0)
    (hn : (s.axis x).decimation ≤ s.servo.telemetryCount.get x + 1) :
    s.telemetryStep x = (s.counted x 0).copyTelemetry x := by
  simp only [State.telemetryStep, if_neg h, if_neg (Nat.not_lt.mpr hn)]
  rfl

theorem State.copyTelemetry_unset (h : s.site.telemetryDest = none) : s.copyTelemetry x = s := by
  simp only [State.copyTelemetry, h]

theorem State.copyTelemetry_set (h : s.site.telemetryDest ≠ none) (hl : s.servo.latest.get x = some l) :
    s.copyTelemetry x = { s with site.telemetry :=
      (if s.site.telemetry.length < 4 then s.site.telemetry else s.site.telemetry.drop 1) ++
        [s.telemetryEntry x l] } := by
  obtain ⟨d, hd⟩ := Option.ne_none_iff_exists'.mp h
  have hswap : pushTelemetry s.site.telemetry (s.telemetryEntry x l) =
      (if s.site.telemetry.length < 4 then s.site.telemetry else s.site.telemetry.drop 1) ++
        [s.telemetryEntry x l] := by
    have hsize : Config.telemetrySize ≤ s.site.telemetry.length ↔ ¬ s.site.telemetry.length < 4 :=
      Nat.not_lt.symm
    simp only [pushTelemetry, hsize, ite_not]
  simp only [State.copyTelemetry, hd, hl, hswap]

end

/-! ### The cases together (O60) -/

section
variable {s : State} {x : Lane} {a : Running} {t : Nat} {c : Chain}

theorem State.evaluateLane_underrun_masked (ha : s.seq.active = some a)
    (hc : findChain s.chains a.record.targetId x = some c) (hm : s.seq.motion.composing = true)
    (hv : (c.retire t).valueAt t = none) (hmask : marks s.cond.mask .underrun = true) :
    s.evaluateLane x t = (State.refillTest
      (((s.retired a.record.targetId x t).flagged a .underrun (axisByte (some x)) 0).caused
        .underrunHold x |>.holdLane x (some ((c.ending.map (·.position)).getD 0)))
      a.record.targetId x, false) := by
  rw [State.evaluateLane_composing ha hc hm,
    State.evaluateChain_masked (s := s.retired a.record.targetId x t) ha hv hmask]
  exact if_neg Bool.false_ne_true

theorem State.evaluateLane_underrun_unmasked (ha : s.seq.active = some a)
    (hc : findChain s.chains a.record.targetId x = some c) (hm : s.seq.motion.composing = true)
    (hv : (c.retire t).valueAt t = none) (hmask : marks s.cond.mask .underrun = false) :
    s.evaluateLane x t =
      (((s.retired a.record.targetId x t).flagged a .underrun (axisByte (some x)) 0).endActive .faulted
        (.condition .underrun), true) := by
  rw [State.evaluateLane_composing ha hc hm,
    State.evaluateChain_unmasked (s := s.retired a.record.targetId x t) ha hv hmask]
  exact if_pos rfl

theorem State.evaluateLane_valued (ha : s.seq.active = some a)
    (hc : findChain s.chains a.record.targetId x = some c) (hm : s.seq.motion.composing = true)
    (hv : (c.retire t).valueAt t ≠ none) :
    s.evaluateLane x t = (State.refillTest
      (if (c.retire t).covers t then
        ((s.retired a.record.targetId x t).holdLane x none).removeCause .underrunHold x
      else (s.retired a.record.targetId x t).holdLane x none) a.record.targetId x, false) := by
  rw [State.evaluateLane_composing ha hc hm, State.evaluateChain_valued hv]
  exact if_neg Bool.false_ne_true

theorem MotionState.running_of_composing {m : MotionState} (h : m.composing = true) : m.running = true := by
  revert h
  cases m <;> decide

end

/-- Settles O60: an equation for each step and case, and the end-of-target rule for a target that a step
ends. -/
theorem sampleStepsAndTests : Obligations.SampleStepsAndTests := by
  refine ⟨?sample, ?steps, ?errors, ?tests, ?park, ?telemetry⟩
  case sample =>
    intro s x f v h t p q sent
    have hsent : (s.recordSample x v).driveSteps x f.tag = (sent, q.2.any (·.hold)) := by
      refine (State.driveSteps_of_command f.tag (t := q.1) (p := q.2) rfl).trans ?_
      refine congrArg (·, _) ?_
      show _ = (match q.2 with
        | some c => q.1.commanding x f.tag c.position c.velocity (flagByte c.hold)
        | none => q.1)
      cases q.2 <;> rfl
    rw [exec_sample_heard h, hsent]
  case steps =>
    intro s x t a ha axis id flag
    refine ⟨State.runningSteps_rest, fun hm => ⟨fun c hc => ?_, State.runningSteps_steady ha hm⟩,
      State.evaluateLane_absent ha, fun c hc => ?_, fun _ => State.removeCause_eq ha _ _, rfl,
      State.commandStep_of_none, fun m => State.commandStep_of_some, ?_⟩
    · rw [State.runningSteps_pending ha hm hc]
      exact ⟨rfl, State.endActiveFrom_ended ha _ _ _⟩
    · intro u free under
      refine ⟨fun hm => State.evaluateLane_slewing ha hc (by rw [hm]; rfl),
        fun hm hv => ⟨State.evaluateLane_underrun_masked ha hc hm hv, fun hmask => ?_⟩,
        fun hm hv => State.evaluateLane_valued ha hc hm hv,
        fun e hclosed harmed he hnear => State.refillTest_wanted hc hclosed harmed he hnear,
        fun hq => State.refillTest_quiet hc hq⟩
      rw [State.evaluateLane_underrun_unmasked ha hc hm hv hmask]
      exact ⟨rfl, State.flagged_ended u a _ _ _⟩
    · intro m low high held near far count fits soft range
      have hfits : fits ↔ countInRange (s.axis x) m.pos = true := (countInRange_iff _ _).symm
      have hnot : ¬ fits → countInRange (s.axis x) m.pos = false :=
        fun h => Bool.eq_false_iff.mpr (mt hfits.mpr h)
      refine ⟨fun h hg => State.convert_clear (hfits.mp h) hg,
        fun h => State.convert_held (h.imp_left hnot), State.softStep_plan,
        fun hm hlow hhigh => State.softStep_inside hm ?_,
        fun hm hout => ⟨fun hmask => State.softStep_masked ha hm (State.outsideSoft_iff.mpr hout) hmask,
          fun hmask => ?_⟩,
        State.convertStep_rest, fun hm h => State.convertStep_fits hm (hfits.mp h),
        fun hm h => ⟨fun hmask => State.convertStep_masked ha hm (hnot h) hmask, fun hmask => ?_⟩⟩
      · exact Bool.eq_false_iff.mpr fun ho =>
          (State.outsideSoft_iff.mp ho).elim (Int.not_lt.mpr hlow) (Int.not_lt.mpr hhigh)
      · have hsoft := State.softStep_unmasked (t := t) ha hm (State.outsideSoft_iff.mpr hout) hmask
        simp only [soft, hsoft]
        exact ⟨State.endActiveFrom_ended (a := a.withFlag 1) rfl _ _ _, rfl⟩
      · have hrange := State.convertStep_unmasked (t := t) ha hm (hnot h) hmask
        simp only [range, hrange]
        exact ⟨State.flagged_ended s a _ _ _, rfl⟩
  case errors =>
    intro s x v hold l c hl hc haxes hp hal
    refine ⟨State.errorStep_unmeasured hl hc haxes hp hal, fun angle hmeasured => ?_⟩
    intro e u raised
    have hstep : s.errorStep x v hold = u.errorTests x e v.braked :=
      State.errorStep_measured hl hc haxes hp hal hmeasured
    rw [hstep]
    exact ⟨State.errorTests_none (s := u), State.errorTests_parking (s := u), fun a ha =>
      ⟨State.errorTests_settling (s := u) ha, State.errorTests_tracking (s := u) ha,
        State.errorTests_degraded (s := u) ha⟩⟩
  case tests =>
    intro s x a e braked ha now beyond anew
    have hbeyond : ∀ n, beyond n = true ↔ 256 * n < e.natAbs := fun _ => decide_eq_true_iff
    have hwithin : ∀ n, beyond n = false → ¬ 256 * n < e.natAbs := fun n h => of_decide_eq_false h
    refine ⟨fun m hm hs => ?settle, fun hm => ?track, fun m hm hr => ?recover⟩
    case settle =>
      intro seen late done
      have hlate : late = true ↔ 256 * (s.axis x).settleTol < e.natAbs ∨ braked = true := by
        rw [← hbeyond]
        exact Bool.or_eq_true_iff
      have hdone : done = true ↔ seen.all = true ∧
          m.beginTime + s.planner.globals.settleTime * 1000 ≤ s.time.mount := by
        rw [← decide_eq_true_iff (p := m.beginTime + _ ≤ _)]
        exact Bool.and_eq_true_iff
      have hin : late = false → _ := fun h => mt hlate.mpr (Bool.eq_false_iff.mp h)
      exact ⟨fun h => State.settleTest_late hs (hlate.mp h),
        fun h hd => State.settleTest_waits hs (hin h) (mt hdone.mpr (Bool.eq_false_iff.mp hd)),
        fun h hd hc => State.settleTest_tracks ha hm hs (hin h) (hdone.mp hd) hc,
        fun h hd hc => State.settleTest_degrades ha hm hs (hin h) (hdone.mp hd) hc⟩
    case track =>
      intro u
      refine ⟨fun h => State.trackTest_within (hwithin _ h),
        fun h hmask => State.trackTest_masked ha ((hbeyond _).mp h) hmask, fun h hmask => ?_⟩
      rw [State.trackTest_unmasked ha ((hbeyond _).mp h) hmask]
      exact State.flagged_ended s a _ _ _
    case recover =>
      intro seen again done
      have hdone : done = true ↔ seen.all = true ∧
          m.beginTime + s.planner.globals.recoverTime * 1000 ≤ s.time.mount := by
        rw [← decide_eq_true_iff (p := m.beginTime + _ ≤ _)]
        exact Bool.and_eq_true_iff
      refine ⟨fun h => State.recoverTest_above hr ((hbeyond _).mp h), fun h hb => ?_,
        fun h hb hd => ?_, fun h hb hd => ?_⟩
      · rw [hb]
        exact State.recoverTest_braked hr (hwithin _ h)
      · rw [hb]
        exact State.recoverTest_waits hr (hwithin _ h) (mt hdone.mpr (Bool.eq_false_iff.mp hd))
      · rw [hb]
        exact State.recoverTest_done ha hr (hwithin _ h) (hdone.mp hd)
  case park =>
    intro s p hm hp standing
    have hall : allLanes.all s.atPark = true ↔ standing :=
      (allLanes_iff _).trans (forall_congr' fun _ => State.atPark_iff)
    refine ⟨fun harr hstand => State.parkTest_arrived hm hp harr (hall.mpr hstand), fun h => ?_⟩
    refine State.parkTest_waits hp fun ⟨harr, hstand⟩ => ?_
    exact h.elim (Nat.not_lt.mpr harr) (absurd (hall.mp hstand))
  case telemetry =>
    intro s x l hl every count counted
    refine ⟨State.telemetryStep_off, State.telemetryStep_counts, fun h hn hd => ?_, fun h hn hd => ?_⟩
    · rw [State.telemetryStep_due h hn]
      exact State.copyTelemetry_unset hd
    · rw [State.telemetryStep_due h hn]
      exact State.copyTelemetry_set (s := s.counted x 0) hd hl

/-! ## What a sample in a running state keeps (O53)

`State.gist` is a state without what the steps of a sample write and no later step commands by: reports, the
Servo Path's records, telemetry, the refill marks, statistics, the flags of a target and the motion state
among the composing ones. A step that keeps the gist keeps the commanded motion. -/

/-- What a running target is commanded by: its identity, its ROT mode and its context up to the flags and
the guide's own state. -/
def Running.course (a : Running) : Nat × RotMode × Context :=
  (a.record.targetId, a.record.rotMode,
    { a.ctx with
      flags := 0
      indicator := none
      guide := { a.ctx.guide with
        state := .off, lastSeq := none, hold := false, watch := none, lost := none } })

/-- The parts of a gist. -/
@[ext]
structure Gist where
  rest : State
  course : Option (Nat × RotMode × Context)
  still : Option MotionState
  reads : Nat → Lane → Nat → Motion

/-- The gist of a state. -/
def State.gist (s : State) : Gist where
  rest := { s with
    seq.active := none
    seq.motion := .idle
    seq.spell := none
    chains := []
    servo := State.reset.servo
    site := State.reset.site
    rep := State.reset.rep
    freeIndex := 0 }
  course := s.seq.active.map Running.course
  still := if s.seq.motion.composing then none else some s.seq.motion
  reads := readLane s.chains

/-- A change among the composing states, or of the target beside its course, or of what is left out, keeps
the gist. -/
theorem State.gist_of {s t : State} (rest : t.gist.rest = s.gist.rest)
    (course : t.seq.active.map Running.course = s.seq.active.map Running.course)
    (motion : t.seq.motion = s.seq.motion ∨
      (t.seq.motion.composing = true ∧ s.seq.motion.composing = true))
    (reads : readLane t.chains = readLane s.chains) : t.gist = s.gist := by
  have still : t.gist.still = s.gist.still := by
    unfold State.gist
    dsimp only
    rcases motion with h | ⟨ht, hs⟩
    · rw [h]
    · rw [if_pos ht, if_pos hs]
  exact Gist.ext rest course still reads

section
variable {s t : State} {x : Lane} {a b : Running}

/-! ### What the gist gives -/

theorem State.motion_of_gist (h : t.gist = s.gist) : t.seq.motion = s.seq.motion ∨
    (t.seq.motion.composing = true ∧ s.seq.motion.composing = true) := by
  have hstill := congrArg Gist.still h
  simp only [State.gist] at hstill
  split at hstill <;> split at hstill
  · exact .inr ⟨‹_›, ‹_›⟩
  · cases hstill
  · cases hstill
  · exact .inl (Option.some.inj hstill)

theorem State.running_of_gist (h : t.gist = s.gist) (hm : s.seq.motion.running = true) :
    t.seq.motion.running = true := by
  rcases State.motion_of_gist h with he | ⟨ht, -⟩
  · rw [he]
    exact hm
  · exact MotionState.running_of_composing ht

theorem State.composing_of_gist (h : t.gist = s.gist) (hm : s.seq.motion.composing = true) :
    t.seq.motion.composing = true := by
  rcases State.motion_of_gist h with he | ⟨ht, -⟩
  · rw [he]
    exact hm
  · exact ht

theorem State.slewing_of_gist (h : t.gist = s.gist) (hm : s.seq.motion = .slewing) :
    t.seq.motion = .slewing := by
  rcases State.motion_of_gist h with he | ⟨-, hs⟩
  · exact he.trans hm
  · rw [hm] at hs
    cases hs

theorem State.active_of_gist (h : t.gist = s.gist) (ha : s.seq.active = some a) :
    ∃ b, t.seq.active = some b ∧ b.course = a.course := by
  have hcourse : t.seq.active.map Running.course = s.seq.active.map Running.course :=
    congrArg Gist.course h
  rw [ha] at hcourse
  exact Option.map_eq_some_iff.mp hcourse

theorem State.axis_of_gist (h : t.gist = s.gist) (x : Lane) : t.axis x = s.axis x :=
  congrArg (fun g => g.rest.axis x) h

theorem State.limit_of_gist (h : t.gist = s.gist) (x : Lane) : t.limit x = s.limit x :=
  congrArg (fun g => g.rest.limit x) h

theorem State.guarded_of_gist (h : t.gist = s.gist) (x : Lane) (angle : Int) :
    t.guarded x angle = s.guarded x angle := congrArg (fun g => g.rest.guarded x angle) h

theorem State.planValue_of_gist (h : t.gist = s.gist) (x : Lane) (u : Nat) :
    t.planValue x u = s.planValue x u := congrArg (fun g => g.rest.planValue x u) h

theorem State.ports_of_gist (h : t.gist = s.gist) : t.ports = s.ports := congrArg (·.rest.ports) h

theorem State.mask_of_gist (h : t.gist = s.gist) : t.cond.mask = s.cond.mask :=
  congrArg (·.rest.cond.mask) h

theorem skyMotion_congr {cs ds : List Chain} {q r : TargetRecord} (hid : q.targetId = r.targetId)
    (hrot : q.rotMode = r.rotMode) (hreads : readLane ds = readLane cs) (x : Lane) (u : Nat) :
    skyMotion ds q x u = skyMotion cs r x u := by
  unfold skyMotion
  rw [hid, hrot, hreads]

theorem pointingPart_congr {cs ds : List Chain} {q r : TargetRecord} (hid : q.targetId = r.targetId)
    (hreads : readLane ds = readLane cs) (terms : List Term) (x : Lane) (u : Nat) :
    pointingPart terms ds q x u = pointingPart terms cs r x u := by
  unfold pointingPart
  rw [hid, hreads]

/-- Two targets on one course over one store compose alike (R113, R114). -/
theorem State.composition_of_gist (h : t.gist = s.gist) (hc : b.course = a.course) (x : Lane) (u : Nat) :
    t.composition b x u = s.composition a x u := by
  have hreads : readLane t.chains = readLane s.chains := congrArg Gist.reads h
  have hterms : t.corr.active = s.corr.active := congrArg (·.rest.corr.active) h
  have hid : b.record.targetId = a.record.targetId := congrArg (·.1) hc
  have hrot : b.record.rotMode = a.record.rotMode := congrArg (·.2.1) hc
  have hwrap : b.ctx.wrapK = a.ctx.wrapK := congrArg (·.2.2.wrapK) hc
  have happlied : b.ctx.applied = a.ctx.applied := congrArg (·.2.2.applied) hc
  have hrate : b.ctx.blendRate = a.ctx.blendRate := congrArg (·.2.2.blendRate) hc
  have hguide : guidePart b.ctx.guide x = guidePart a.ctx.guide x :=
    congrArg (fun c => guidePart c.2.2.guide x) hc
  unfold State.composition composed
  rw [skyMotion_congr hid hrot hreads, pointingPart_congr hid hreads, hterms, hwrap, happlied, hrate,
    hguide]

/-! ### Steps that keep the gist -/

theorem State.flagged_gist (ha : s.seq.active = some a) (c : Condition) (q : Byte) (n : Nat) :
    (s.flagged a c q n).gist = s.gist :=
  State.gist_of rfl (by rw [ha]; rfl) (.inl rfl) rfl

theorem State.caused_gist (s : State) (c : DegradeCause) (x : Lane) : (s.caused c x).gist = s.gist := by
  refine State.gist_of rfl rfl ?_ rfl
  by_cases hm : s.seq.motion = .tracking
  · exact .inr ⟨by simp [State.caused, hm, MotionState.composing], by rw [hm]; rfl⟩
  · exact .inl (by simp [State.caused, hm])

theorem State.tracked_gist (ha : s.seq.active = some a) (hm : s.seq.motion.composing = true) :
    (s.tracked a).gist = s.gist := by
  unfold State.tracked
  dsimp only
  split <;> exact State.gist_of rfl (by rw [ha]; rfl) (.inr ⟨rfl, hm⟩) rfl

theorem State.lowered_gist (ha : s.seq.active = some a) (causes : Causes) :
    (s.lowered a causes).gist = s.gist := by
  unfold State.lowered
  dsimp only
  split
  · rename_i h
    have hm : s.seq.motion.composing = true := by rw [h.1]; rfl
    split
    · exact State.gist_of rfl (by rw [ha]; rfl) (.inr ⟨rfl, hm⟩) rfl
    · refine (State.tracked_gist rfl (by exact hm)).trans ?_
      exact State.gist_of rfl (by rw [ha]; rfl) (.inl rfl) rfl
  · rfl

theorem State.removeCause_gist (ha : s.seq.active = some a) (c : DegradeCause) (x : Lane) :
    (s.removeCause c x).gist = s.gist := by
  rw [State.removeCause_eq ha]
  split
  · exact State.lowered_gist ha _
  · rfl

/-- A change of chains that a cross-lane read does not see. -/
theorem readLane_mapChain (cs : List Chain) (id : Nat) (x : Lane) {f : Chain → Chain}
    (howner : ∀ c, (f c).owner = c.owner) (hlane : ∀ c, (f c).lane = c.lane)
    (hread : ∀ c u, (f c).crossRead u = c.crossRead u) :
    readLane (mapChain cs id x f) = readLane cs := by
  funext j y u
  have hfind : findChain (mapChain cs id x f) j y =
      (findChain cs j y).map (fun c => if c.owner == id && c.lane == x then f c else c) := by
    unfold findChain mapChain
    rw [List.find?_map]
    refine congrArg (Option.map _) (congrArg (List.find? · cs) (funext fun c => ?_))
    simp only [Function.comp]
    split
    · rw [howner, hlane]
    · rfl
  unfold readLane
  rw [hfind]
  cases findChain cs j y with
  | none => rfl
  | some c =>
    simp only [Option.map_some]
    split
    · exact hread c u
    · rfl

theorem mapChain_absent {cs : List Chain} {id : Nat} (h : findChain cs id x = none)
    (f : Chain → Chain) : mapChain cs id x f = cs :=
  (List.map_congr_left fun c hc => if_neg (List.find?_eq_none.mp h c hc)).trans (List.map_id' cs)

theorem State.refillTest_gist (s : State) (id : Nat) (x : Lane) : (s.refillTest id x).gist = s.gist := by
  unfold State.refillTest
  split
  · rfl
  · split
    · exact State.gist_of rfl rfl (.inl rfl) (readLane_mapChain s.chains id x
        (f := fun c => { c with refillArmed := false }) (fun _ => rfl) (fun _ => rfl) (fun _ _ => rfl))
    · rfl

theorem State.telemetryStep_gist (s : State) (x : Lane) : (s.telemetryStep x).gist = s.gist := by
  unfold State.telemetryStep State.copyTelemetry
  dsimp only
  split
  · rfl
  · split
    · rfl
    · split <;> rfl

variable {e : Int} {braked : Bool}

theorem State.settleTest_gist (ha : s.seq.active = some a) (hm : s.seq.motion = .settling) :
    (s.settleTest x e braked).gist = s.gist := by
  unfold State.settleTest
  split
  · rfl
  · split
    · rfl
    · dsimp only
      split
      · split
        · rw [State.enter_tracking_of_settling (by exact ha) (by exact hm)]
          exact State.tracked_gist (s := { s with servo.settle := none }) ha (by rw [hm]; rfl)
        · rw [State.enter_degraded_of_settling (by exact ha) (by exact hm)]
          exact State.gist_of rfl rfl (.inr ⟨rfl, by rw [hm]; rfl⟩) rfl
      · rfl

theorem State.trackTest_gist (ha : s.seq.active = some a) (hmask : marks s.cond.mask .trackError = true) :
    (s.trackTest x e).gist = s.gist := by
  by_cases h : 256 * (s.axis x).trackTol < e.natAbs
  · rw [State.trackTest_masked ha h hmask]
    exact (State.caused_gist _ _ _).trans (State.flagged_gist ha _ _ _)
  · rw [State.trackTest_within h]

theorem State.recoverTest_gist (ha : s.seq.active = some a) : (s.recoverTest x e braked).gist = s.gist := by
  unfold State.recoverTest
  split
  · rfl
  · dsimp only
    split
    · split
      · rw [State.addCause_eq]
        exact State.caused_gist _ _ _
      · rfl
    · split
      · rw [State.lowerCause_eq (by exact ha)]
        exact State.lowered_gist (s := { s with servo.recover := none }) ha _
      · rfl

theorem State.peaked_gist (ha : s.seq.active = some a) : (s.peaked a x e).gist = s.gist :=
  State.gist_of rfl (by rw [ha]; rfl) (.inl rfl) rfl

/-- The tests of step 10 in a running state: with TRACK_ERROR masked they keep the gist, and they never
touch a port. -/
theorem State.errorTests_keeps (ha : s.seq.active = some a) (hm : s.seq.motion.running = true) :
    (marks s.cond.mask .trackError = true → (s.errorTests x e braked).gist = s.gist) ∧
      (s.errorTests x e braked).ports = s.ports := by
  have hpeak := State.peaked_gist (x := x) (e := e) ha
  have hboth : ∀ {t : State}, t.gist = (s.peaked a x e).gist →
      (marks s.cond.mask .trackError = true → t.gist = s.gist) ∧ t.ports = s.ports :=
    fun h => ⟨fun _ => h.trans hpeak, State.ports_of_gist (h.trans hpeak)⟩
  cases h : s.seq.motion with
  | slewing =>
    rw [State.errorTests_none (by rw [h]; decide)]
    exact ⟨fun _ => rfl, rfl⟩
  | settling =>
    rw [State.errorTests_settling ha h]
    exact hboth (State.settleTest_gist rfl h)
  | tracking =>
    rw [State.errorTests_tracking ha h]
    cases hmask : marks s.cond.mask .trackError with
    | true => exact hmask ▸ hboth (State.trackTest_gist (s := s.peaked a x e) rfl hmask)
    | false =>
      refine ⟨fun h => absurd h (by decide), ?_⟩
      by_cases hbeyond : 256 * (s.axis x).trackTol < e.natAbs
      · rw [State.trackTest_unmasked (s := s.peaked a x e) rfl hbeyond hmask]
        exact (State.endActiveFrom_spec _ _ _ _).1.ports
      · rw [State.trackTest_within (s := s.peaked a x e) hbeyond]
        rfl
  | degraded =>
    rw [State.errorTests_degraded ha h]
    split
    · exact hboth (State.recoverTest_gist rfl)
    · exact hboth rfl
  | parked | idle | stopping | parking | alarm => rw [h] at hm; cases hm

theorem State.errorStep_keeps {v : SampleFields} {hold : Bool} (ha : s.seq.active = some a)
    (hm : s.seq.motion.running = true) :
    (marks s.cond.mask .trackError = true → (s.errorStep x v hold).gist = s.gist) ∧
      (s.errorStep x v hold).ports = s.ports := by
  unfold State.errorStep
  split
  · exact ⟨fun _ => rfl, rfl⟩
  · dsimp only
    split
    · exact ⟨fun _ => rfl, rfl⟩
    · exact State.errorTests_keeps (s := s.mapLatest x _) ha hm

end

/-! ## The composition commanded (R112 to R114, R118 to R122) -/

section
variable {s : State} {x : Lane} {a : Running} {t : Nat} {m : Motion}

theorem State.retired_absent {id : Nat} (h : findChain s.chains id x = none) : s.retired id x t = s := by
  unfold State.retired
  rw [mapChain_absent h]

/-- A lane whose chain has a value is evaluated without a fault, and only its ended segments go. -/
theorem State.evaluateLane_keeps (ha : s.seq.active = some a)
    (hm : s.seq.motion = .slewing ∨ (s.seq.motion.composing = true ∧
      ∀ c, findChain s.chains a.record.targetId x = some c → (c.retire t).valueAt t ≠ none)) :
    ∃ u, s.evaluateLane x t = (u, false) ∧ u.gist = (s.retired a.record.targetId x t).gist := by
  cases hc : findChain s.chains a.record.targetId x with
  | none => exact ⟨s, State.evaluateLane_absent ha hc, by rw [State.retired_absent hc]⟩
  | some c =>
    rcases hm with hslew | ⟨hcomp, hvalue⟩
    · exact ⟨_, State.evaluateLane_slewing ha hc (by rw [hslew]; rfl), State.refillTest_gist _ _ _⟩
    · refine ⟨_, State.evaluateLane_valued ha hc hcomp (hvalue c hc), ?_⟩
      refine (State.refillTest_gist _ _ _).trans ?_
      split
      · exact State.removeCause_gist
          (s := (s.retired a.record.targetId x t).holdLane x none) ha _ _
      · rfl

theorem State.commandedAt_slewing (hm : s.seq.motion = .slewing) :
    s.commandedAt x t = some (s.planValue x t) := by
  simp only [State.commandedAt, hm]

theorem State.commandedAt_composing (ha : s.seq.active = some a) (hm : s.seq.motion.composing = true) :
    s.commandedAt x t = some (s.composition a x t) := by
  cases h : s.seq.motion with
  | settling | tracking | degraded => simp only [State.commandedAt, h, ha, Option.map_some]
  | parked | idle | slewing | stopping | parking | alarm => rw [h] at hm; cases hm

/-- The SETPOINT of a motion within the count range and the hard limits (R121, R122). -/
def Setpoint.clear (r : AxisRecord) (m : Motion) : Setpoint :=
  { position := countOf r m.pos, velocity := velocityCounts r m.vel, hold := false }

theorem State.convertStep_clear (ha : s.seq.active = some a) (hm : s.seq.motion.running = true)
    (hfits : countInRange (s.axis x) m.pos = true) (hg : s.guarded x m.pos = false) :
    ∃ w, s.convertStep x t m = (w, some (.clear (s.axis x) m)) ∧ w.gist = s.gist := by
  refine ⟨s.removeCause .rangeHold x, ?_, State.removeCause_gist ha _ _⟩
  rw [State.convertStep_fits hm hfits, State.convert_clear hfits hg]
  rfl

theorem State.softStep_clear (ha : s.seq.active = some a)
    (hm : s.seq.motion = .slewing ∨ (s.seq.motion.composing = true ∧ s.outsideSoft x m = false))
    (hfits : countInRange (s.axis x) m.pos = true) (hg : s.guarded x m.pos = false) :
    ∃ w, s.softStep x t m = (w, some (.clear (s.axis x) m)) ∧ w.gist = s.gist := by
  rcases hm with hslew | ⟨hcomp, hinside⟩
  · rw [State.softStep_plan (by rw [hslew]; rfl)]
    exact State.convertStep_clear ha (by rw [hslew]; rfl) hfits hg
  · have hclamp := State.removeCause_gist ha .limitClamp x
    obtain ⟨b, hb, -⟩ := State.active_of_gist hclamp ha
    rw [State.softStep_inside hcomp hinside, ← State.axis_of_gist hclamp]
    rw [← State.axis_of_gist hclamp] at hfits
    rw [← State.guarded_of_gist hclamp] at hg
    obtain ⟨w, hw, hgist⟩ := State.convertStep_clear (t := t) hb
      (MotionState.running_of_composing (State.composing_of_gist hclamp hcomp)) hfits hg
    exact ⟨w, hw, hgist.trans hclamp⟩

/-- What is commanded from a state with the gist of another is what the other commands. -/
theorem State.commandedAt_of_gist {u : State} (h : u.gist = s.gist) (ha : s.seq.active = some a)
    (hm : s.seq.motion = .slewing ∨ s.seq.motion.composing = true) :
    u.commandedAt x t =
      some (if s.seq.motion = .slewing then s.planValue x t else s.composition a x t) := by
  rcases hm with hslew | hcomp
  · rw [if_pos hslew, State.commandedAt_slewing (State.slewing_of_gist h hslew),
      State.planValue_of_gist h]
  · obtain ⟨b, hb, hcourse⟩ := State.active_of_gist h ha
    rw [if_neg (fun hslew => by rw [hslew] at hcomp; cases hcomp),
      State.commandedAt_composing hb (State.composing_of_gist h hcomp),
      State.composition_of_gist h hcourse]

theorem MotionState.composing_iff {m : MotionState} :
    m.composing = true ↔ m ∈ [.settling, .tracking, .degraded] := by
  cases m <;> decide

/-- The state by which a lane is commanded at a sample: its blend advanced and its chain retired. -/
def State.evaluated (s : State) (a : Running) (x : Lane) (t : Nat) : State :=
  (s.blended a x).retired a.record.targetId x t

/-- The motion commanded at a sample, from the plan or the composition (R119). -/
def State.sampled (s : State) (a : Running) (x : Lane) (t : Nat) : Motion :=
  if s.seq.motion = .slewing then s.planValue x t
  else (s.evaluated a x t).composition
    { a with ctx := a.ctx.advance x (s.axis x).offsetRate s.time.mount } x t

/-- Steps 3 to 9 of a sample that meets no condition: the motion of `State.sampled` goes into the setpoint
slot, and the gist is that of `State.evaluated`. -/
theorem State.driveSteps_clear (tag : Byte) (ha : s.seq.active = some a)
    (hfault : pendingFault a.ctx.flags s.cond.mask = none)
    (ht : s.time.mount + (s.axis x).lead = t) (hm : s.sampled a x t = m)
    (hstate : s.seq.motion = .slewing ∨ (s.seq.motion.composing = true ∧
      (∀ c, findChain s.chains a.record.targetId x = some c → (c.retire t).valueAt t ≠ none) ∧
      s.outsideSoft x m = false))
    (hfits : countInRange (s.axis x) m.pos = true) (hg : s.guarded x m.pos = false) :
    ∃ w : State, s.driveSteps x tag = (w.placeSetpoint x tag (some (.clear (s.axis x) m)), false) ∧
      w.gist = (s.evaluated a x t).gist := by
  let b : Running := { a with ctx := a.ctx.advance x (s.axis x).offsetRate s.time.mount }
  have hmoving : s.seq.motion = .slewing ∨ s.seq.motion.composing = true := hstate.imp_right (·.1)
  have hrunning : s.seq.motion.running = true :=
    hmoving.elim (fun h => by rw [h]; rfl) MotionState.running_of_composing
  obtain ⟨u, hlane, hu⟩ := State.evaluateLane_keeps (s := s.blended a x) (x := x) (t := t) (a := b) rfl
    (hstate.imp_right fun ⟨hcomp, hvalue, _⟩ => ⟨hcomp, hvalue⟩)
  have hsteps : s.runningSteps x t = (u, false) :=
    (State.runningSteps_steady ha hrunning hfault).trans hlane
  have hcommanded : u.commandedAt x t = some m :=
    (State.commandedAt_of_gist (s := s.evaluated a x t) (a := b) hu rfl hmoving).trans
      (congrArg some hm)
  have haxis : u.axis x = s.axis x := State.axis_of_gist (s := s.evaluated a x t) hu x
  have hlimit : u.outsideSoft x m = s.outsideSoft x m :=
    congrArg (fun g => g.rest.outsideSoft x m) hu
  have hguard : u.guarded x m.pos = s.guarded x m.pos :=
    State.guarded_of_gist (s := s.evaluated a x t) hu x m.pos
  obtain ⟨c, hc, -⟩ := State.active_of_gist (s := s.evaluated a x t) (a := b) hu rfl
  obtain ⟨w, hw, hgist⟩ := State.softStep_clear (t := t) hc
    (hstate.imp (State.slewing_of_gist (s := s.evaluated a x t) hu) fun ⟨hcomp, _, hinside⟩ =>
      ⟨State.composing_of_gist (s := s.evaluated a x t) hu hcomp, hlimit.trans hinside⟩)
    (haxis ▸ hfits) (hguard.trans hg)
  refine ⟨w, State.driveSteps_of_command tag ?_, hgist.trans hu⟩
  rw [ht, hsteps, State.commandStep_of_some hcommanded, hw, haxis]

/-- Steps 10 and 11 of a sample in a running state: they touch no port, and keep the gist where
TRACK_ERROR is masked. -/
theorem State.lastSteps_keep {v : SampleFields} {hold : Bool} (ha : s.seq.active = some a)
    (hm : s.seq.motion.running = true) :
    ((s.errorStep x v hold).telemetryStep x).ports = s.ports ∧
      (marks s.cond.mask .trackError = true →
        ((s.errorStep x v hold).telemetryStep x).gist = s.gist) := by
  obtain ⟨hgist, hports⟩ := State.errorStep_keeps (x := x) (v := v) (hold := hold) ha hm
  have hlast := State.telemetryStep_gist (s.errorStep x v hold) x
  exact ⟨(State.ports_of_gist hlast).trans hports, fun hmask => hlast.trans (hgist hmask)⟩

/-- A value moved towards a goal by at most some amount (R112, log 29). -/
theorem approach_eq (value goal : Int) (most : Nat) : approach value goal most =
    if (goal - value).natAbs ≤ most then goal
    else if value < goal then value + most else value - most := by
  unfold approach clampInt
  split_ifs <;> omega

end

/-- Settles O53: the evaluation and the soft limits keep the gist, by which the motion is commanded and
converted, and step 10 keeps it where TRACK_ERROR is masked. -/
theorem sampleInTrackingCommandsComposition : Obligations.SampleInTrackingCommandsComposition := by
  refine ⟨fun s x f v a h ha hfault => ?_, fun c x rate now => ?_⟩
  · intro t chains ctx m hm hlow hhigh hguard
    let k : State := (s.recordSample x v).evaluated a x t
    have hstate : s.seq.motion = .slewing ∨ (s.seq.motion.composing = true ∧
        (∀ c, findChain s.chains a.record.targetId x = some c → (c.retire t).valueAt t ≠ none) ∧
        s.outsideSoft x m = false) :=
      hm.imp_right fun ⟨hcomp, hvalue, hmin, hmax⟩ =>
        ⟨MotionState.composing_iff.mpr hcomp, hvalue, Bool.eq_false_iff.mpr fun ho =>
          (State.outsideSoft_iff.mp ho).elim (Int.not_lt.mpr hmin) (Int.not_lt.mpr hmax)⟩
    have hrunning : s.seq.motion.running = true := hstate.elim (fun h => by rw [h]; rfl)
      fun hc => MotionState.running_of_composing hc.1
    obtain ⟨w, hdrive, hw⟩ := State.driveSteps_clear (s := s.recordSample x v) (x := x) (t := t) (m := m)
      f.tag ha hfault rfl rfl hstate ((countInRange_iff _ _).mpr ⟨hlow, hhigh⟩) hguard
    let p : State := w.placeSetpoint x f.tag (some (.clear (s.axis x) m))
    have hp : p.gist = State.gist { k with ports := p.ports } :=
      congrArg (fun g => { g with rest.ports := p.ports }) hw
    have hports : p.ports = s.ports.set x { s.ports.get x with
        setpoint := some (setpointFrame (s.axis x).node f.tag (.clear (s.axis x) m)) } := by
      have hwports : w.ports = s.ports := State.ports_of_gist (s := k) hw
      have hwaxis : w.axis x = s.axis x := State.axis_of_gist (s := k) hw x
      show w.ports.set x { w.ports.get x with
        setpoint := some (setpointFrame (w.axis x).node f.tag (.clear (s.axis x) m)) } = _
      rw [hwports, hwaxis]
    obtain ⟨d, hd, -⟩ := State.active_of_gist (s := { k with ports := p.ports })
      (a := { a with ctx }) hp rfl
    obtain ⟨hlast, hgist⟩ := State.lastSteps_keep (x := x) (v := v) (hold := false) hd
      (State.running_of_gist (s := { k with ports := p.ports }) hp hrunning)
    have hexec : exec (.sample x f) s = .next ((p.errorStep x v false).telemetryStep x) := by
      rw [exec_sample_heard h, hdrive]
      rfl
    refine ⟨_, hexec, ?_, fun y hy => ?_, fun hmask => ?_⟩
    · rw [hlast, hports, Lanes.get_set_self]
      rfl
    · rw [hlast, hports, Lanes.get_set_of_ne _ _ hy]
    · have hmasked : marks p.cond.mask .trackError = true := by
        rw [State.mask_of_gist hp]
        exact hmask
      have hfinal := (hgist hmasked).trans hp
      obtain ⟨e, he, hcourse⟩ := State.active_of_gist (s := { k with ports := p.ports })
        (a := { a with ctx }) hfinal rfl
      exact ⟨⟨e, he, congrArg (·.1) hcourse, congrArg (·.2.2.applied) hcourse,
          congrArg (·.2.2.blendTime) hcourse, congrArg (·.2.2.blendRate) hcourse,
          congrArg (·.2.2.stack) hcourse, congrArg (·.2.2.dwellRemaining) hcourse,
          congrArg (·.2.2.wrapK) hcourse⟩,
        congrArg (·.rest.seq.queue) hfinal, congrArg (·.rest.seq.shelf) hfinal,
        congrArg (·.rest.seq.outcomes) hfinal, congrArg (·.rest.seq.mode) hfinal,
        congrArg (·.rest.seq.hold) hfinal, congrArg (·.rest.seq.sup) hfinal,
        congrArg (·.rest.seq.parkPending) hfinal, congrArg (·.rest.time) hfinal,
        congrArg (·.rest.cond) hfinal, congrArg (·.rest.planner) hfinal,
        congrArg (·.rest.corr) hfinal, congrArg (·.rest.guide) hfinal⟩
  · intro goal from_ most reached
    have happroach : approach from_ goal most = reached := approach_eq _ _ _
    rw [← happroach]
    rfl

end Sys2Proof.Machine

/-! # Sequencing and motion states: obligations O2, O4, O7, O13, O16, O23, O26, O29, O30, O33, O44 to O46,
O48, O56, O57, O59 -/

namespace Sys2Proof.Machine

set_option Elab.async false

/-! ## The gait: what the motion state must agree with (R47, R58 to R60, R124, R125)

The invariants of O7 and O13 read seven things of a state: the motion state, and whether the slot, a spell, a
settle measurement, a degrade cause, TRACK_ERROR and a recover measurement are there. `State.gait` is these
seven. An operation that leaves the gait alone keeps the invariants at once; every other one enters a motion
state, empties or fills the slot, or adds or lowers a cause, and each of these is treated once, on gaits. -/

/-- What the agreement of the motion state with the slot, the measurements and the causes depends on. -/
structure Gait where
  motion : MotionState
  active : Bool
  spell : Bool
  settle : Bool
  uncaused : Bool
  erring : Bool
  recover : Bool

def State.gait (s : State) : Gait where
  motion := s.seq.motion
  active := s.seq.active.isSome
  spell := s.seq.spell.isSome
  settle := s.servo.settle.isSome
  uncaused := s.servo.causes.isEmpty
  erring := s.servo.causes.has .trackError
  recover := s.servo.recover.isSome

/-- The degrade causes and the recover measurement are such as a motion state has them (R58, R60, R125). -/
structure Gait.CausedFor (n : MotionState) (g : Gait) : Prop where
  clear : n = .tracking ∨ n.running = false → g.uncaused = true
  held : n = .degraded → g.uncaused = false
  recover : g.recover = g.erring

/-- The slot agrees with the motion state; and so do the measurements, where `m` asks for it, and the
causes, where `c` asks for it (R47, R58 to R60, R124, R125). -/
structure Gait.Sound (m c : Bool) (g : Gait) : Prop where
  slot : g.active = g.motion.running
  measures : m = true → g.spell = decide (g.motion = .degraded) ∧ g.settle = decide (g.motion = .settling)
  causes : c = true → g.CausedFor g.motion

/-- Neither a spell nor a settle measurement outlasts its motion state: all that an entry needs of the
measurements. -/
def Gait.Measured (m : Bool) (g : Gait) : Prop :=
  m = true → (g.motion ≠ .degraded → g.spell = false) ∧ (g.motion ≠ .settling → g.settle = false)

/-- The slot is empty, and what was kept for its target is gone (R20, R58, R59, R124, R125). -/
structure Gait.Vacant (m c : Bool) (g : Gait) : Prop where
  slot : g.active = false
  measured : g.Measured m
  causes : c = true → g.uncaused = true ∧ g.recover = g.erring

/-- A motion state entered: only DEGRADED begins a spell and only SETTLING a settle measurement, and each
ends with its state (R47, R59, R124). -/
def Gait.enter (n : MotionState) (g : Gait) : Gait :=
  { g with
    motion := n
    spell := decide (n = .degraded) || (g.spell && decide (g.motion ≠ .degraded))
    settle := decide (n = .settling) || (g.settle && decide (g.motion ≠ .settling)) }

/-- A target in the slot under a slew, with no cause (R54, R65). -/
def Gait.take (g : Gait) : Gait :=
  { g.enter .slewing with active := true, uncaused := true, erring := false, recover := false }

/-- The target gone from the slot, if there was one. -/
def Gait.vacate (g : Gait) : Gait :=
  if g.active then
    { g with
      active := false, spell := false, settle := false
      uncaused := true, erring := false, recover := false }
  else g

/-- A cause added, TRACK_ERROR or another: TRACKING becomes DEGRADED (R58). -/
def Gait.cause (err : Bool) (g : Gait) : Gait :=
  if g.motion = .tracking then { g.enter .degraded with uncaused := false, erring := g.erring || err }
  else { g with uncaused := false, erring := g.erring || err }

section
variable {m c : Bool} {g : Gait} {n : MotionState}

theorem Gait.Sound.measured (h : g.Sound m c) : g.Measured m := fun hm => by
  obtain ⟨hspell, hsettle⟩ := h.measures hm
  exact ⟨fun hd => by rw [hspell, decide_eq_false hd], fun hs => by rw [hsettle, decide_eq_false hs]⟩

/-- An entry ends what outlasts no state, so it is sound where the slot and the causes are such as the
entered state has them. -/
theorem Gait.enter_sound (h : g.Measured m) (slot : g.active = n.running)
    (causes : c = true → g.CausedFor n) : (g.enter n).Sound m c where
  slot := slot
  measures hm := by
    obtain ⟨hspell, hsettle⟩ := h hm
    constructor
    · by_cases hd : g.motion = .degraded <;> simp [Gait.enter, hd, hspell]
    · by_cases hs : g.motion = .settling <;> simp [Gait.enter, hs, hsettle]
  causes hc := ⟨(causes hc).clear, (causes hc).held, (causes hc).recover⟩

theorem Gait.take_sound (h : g.Measured m) : g.take.Sound m c :=
  Gait.enter_sound (g := { g with active := true, uncaused := true, erring := false, recover := false })
    h rfl (fun _ => ⟨fun _ => rfl, nofun, rfl⟩)

theorem Gait.Sound.vacant (h : g.Sound m c) (hg : g.motion.running = false) : g.Vacant m c where
  slot := h.slot.trans hg
  measured := h.measured
  causes hc := ⟨(h.causes hc).clear (.inr hg), (h.causes hc).recover⟩

theorem Gait.vacate_vacant (h : g.Sound m c) : g.vacate.Vacant m c := by
  unfold Gait.vacate
  split
  · exact ⟨rfl, fun _ => ⟨fun _ => rfl, fun _ => rfl⟩, fun _ => ⟨rfl, rfl⟩⟩
  · rename_i ha
    exact h.vacant (h.slot.symm.trans (Bool.eq_false_iff.mpr ha))

/-- From an empty slot every state but a running one may be entered. -/
theorem Gait.Vacant.enter_sound (h : g.Vacant m c) (hn : n.running = false) : (g.enter n).Sound m c :=
  Gait.enter_sound h.measured (h.slot.trans hn.symm) fun hc =>
    ⟨fun _ => (h.causes hc).1, fun hd => absurd (hd ▸ hn) (by decide), (h.causes hc).2⟩

/-- A cause joins the set in a running state, and TRACK_ERROR does so with a recover measurement. -/
theorem Gait.cause_sound {err r : Bool} (h : g.Sound m c) (hg : g.motion.running = true)
    (hr : c = true → r = (g.erring || err)) : ({ g.cause err with recover := r } : Gait).Sound m c := by
  by_cases ht : g.motion = .tracking
  · simp only [Gait.cause, ht, if_true]
    refine Gait.enter_sound (n := .degraded)
      (g := { g with uncaused := false, erring := g.erring || err, recover := r }) ?_ ?_ ?_
    · exact h.measured
    · exact h.slot.trans hg
    · exact fun hc => ⟨fun hd => by simp [MotionState.running] at hd, fun _ => rfl, hr hc⟩
  · simp only [Gait.cause, ht, if_false]
    exact ⟨h.slot, h.measures, fun hc =>
      ⟨fun hd => by simp [ht, hg] at hd, fun _ => rfl, hr hc⟩⟩

/-- Fewer causes: where that empties the set in DEGRADED, SETTLING or TRACKING is entered, and else the
motion state stays. -/
theorem Gait.lower_sound {u e r : Bool} (h : g.Sound m c) (hu : g.uncaused = true → u = true)
    (hr : c = true → r = e) :
    let k : Gait := { g with uncaused := u, erring := e, recover := r }
    (¬ (g.motion = .degraded ∧ u = true ∧ g.uncaused = false) → k.Sound m c) ∧
      (g.motion = .degraded → u = true → ∀ n, n = .settling ∨ n = .tracking → (k.enter n).Sound m c) := by
  refine ⟨fun hk => ⟨h.slot, h.measures, fun hc => ?_⟩, fun hg hu' n hn => ?_⟩
  · refine ⟨fun hm => hu ((h.causes hc).clear hm), fun hd => ?_, hr hc⟩
    exact Bool.eq_false_iff.mpr fun hu' => hk ⟨hd, hu', (h.causes hc).held hd⟩
  · refine Gait.enter_sound h.measured (h.slot.trans ?_) (fun hc => ⟨fun _ => hu', ?_, hr hc⟩)
    · rcases hn with rfl | rfl <;> rw [hg] <;> rfl
    · rcases hn with rfl | rfl <;> nofun

end

/-! ### What each operation does to the gait -/

/-- The motion state agrees with the slot, and with the measurements (`m`) and the causes (`c`) where they
agreed before. -/
def State.Poised (m c : Bool) (s : State) : Prop := s.gait.Sound m c

theorem State.slotMatches_iff (s : State) : s.slotMatches ↔ s.Poised false false :=
  ⟨fun h => ⟨h, nofun, nofun⟩, fun h => h.slot⟩

theorem State.poised_measures_iff (s : State) : s.Poised true false ↔ s.slotMatches ∧ s.measuresMatch :=
  ⟨fun h => ⟨h.slot, h.measures rfl⟩, fun h => ⟨h.1, fun _ => h.2, nofun⟩⟩

theorem State.poised_causes_iff (s : State) : s.Poised false true ↔ s.slotMatches ∧ s.causesMatch :=
  ⟨fun h => ⟨h.slot, (h.causes rfl).clear, (h.causes rfl).held, (h.causes rfl).recover⟩,
    fun ⟨hslot, hclear, hheld, hrecover⟩ => ⟨hslot, nofun, fun _ => ⟨hclear, hheld, hrecover⟩⟩⟩

theorem State.enter_gait (s : State) (n : MotionState) : (s.enter n).gait = s.gait.enter n := by
  obtain ⟨rep, corr, freeIndex, f, spell, settle, -, he, -, hspell, hleft, hkept, hsettle, hdone, hheld⟩ :=
    State.enter_eq s n
  have hspell' : spell.isSome =
      (decide (n = .degraded) || (s.seq.spell.isSome && decide (s.seq.motion ≠ .degraded))) := by
    by_cases hn : n = .degraded
    · simp [hn, hspell hn]
    · by_cases hs : s.seq.motion = .degraded
      · simp [hn, hs, hleft hn hs]
      · simp [hn, hs, hkept hn hs]
  have hsettle' : settle.isSome =
      (decide (n = .settling) || (s.servo.settle.isSome && decide (s.seq.motion ≠ .settling))) := by
    by_cases hn : n = .settling
    · simp [hn, hsettle hn]
    · by_cases hs : s.seq.motion = .settling
      · simp [hn, hs, hdone hn hs]
      · simp [hn, hs, hheld hn hs]
  rw [he]
  simp only [State.gait, Option.isSome_map, hspell', hsettle']
  rfl

theorem State.takeSlot_gait (s : State) (a : Running) (p : SlewPlan) :
    (s.takeSlot a p).gait = s.gait.take :=
  State.enter_gait _ _

theorem State.mapActive_gait (s : State) (f : Running → Running) : (s.mapActive f).gait = s.gait := by
  simp [State.gait]

/-- A change of the running target that leaves it in the slot. -/
theorem State.mapped_gait (s : State) (f : Running → Running) :
    State.gait { s with seq.active := s.seq.active.map f } = s.gait :=
  s.mapActive_gait f

theorem State.departActive_gait (s : State) (v : Verdict) (why : Reason) (x : Option Lane) :
    (s.departActive v why x).gait = s.gait.vacate := by
  cases h : s.seq.active with
  | none =>
    rw [State.departActive_of_empty v why x h]
    simp [State.gait, Gait.vacate, h]
  | some a =>
    rw [State.departActive_eq v why x h]
    have hempty : Causes.empty.isEmpty = true := rfl
    have herring : Causes.empty.has .trackError = false := rfl
    simp [State.gait, Gait.vacate, h, State.vacated, State.departed, hempty, herring]

theorem State.abandonShelf_gait (s : State) (why : Reason) : (s.abandonShelf why).gait = s.gait := by
  obtain ⟨chains, outcomes, rep, h⟩ := State.abandonShelf_spec s why
  rw [h]
  rfl

theorem State.departAllQueued_gait (s : State) (rs : List TargetRecord) (v : Verdict) (why : Reason) :
    (s.departAllQueued rs v why).gait = s.gait := by
  obtain ⟨-, -, -, -, hservo, -, -, -, -, -, -, hactive, -, -, hmotion, -, -, hspell, -⟩ :=
    State.departAllQueued_fields rs v why s
  simp only [State.gait, hservo, hactive, hmotion, hspell]

theorem State.expireHanded_gait (s : State) : s.expireHanded.gait = s.gait :=
  s.departAllQueued_gait _ _ _

theorem State.starve_gait (s : State) (r : TargetRecord) (t : Nat) (covered : Lanes Bool) :
    (s.starve r t covered).gait = s.gait := by
  unfold State.starve
  split <;> rfl

/-- The activation test leaves the gait as it is, or fills the slot. -/
theorem activationTest_gait (inRule : Bool) (o : Lanes Motion) :
    ∀ (n : Nat) (s : State), (activationTest inRule o n s).gait = s.gait ∨
      (activationTest inRule o n s).gait = s.gait.take := by
  intro n
  induction n with
  | zero => exact fun s => .inl rfl
  | succ n ih =>
    intro s
    unfold activationTest
    split
    · exact .inl rfl
    · split
      · dsimp only
        split
        · exact .inl (State.starve_gait _ _ _ _)
        · exact ih _
        · split
          · exact .inr (State.takeSlot_gait _ _ _)
          · exact .inl (State.starve_gait _ _ _ _)
      · exact .inl rfl

/-- The restores leave the gait as it is, or fill the slot. -/
theorem restoreShelf_gait (o : Lanes Motion) :
    ∀ (n : Nat) (s : State), (restoreShelf o n s).gait = s.gait ∨
      (restoreShelf o n s).gait = s.gait.take := by
  intro n
  induction n with
  | zero => exact fun s => .inl rfl
  | succ n ih =>
    intro s
    unfold restoreShelf
    split
    · exact .inl rfl
    · dsimp only
      split
      · split
        · exact .inr (State.takeSlot_gait _ _ _)
        · exact ih _
      · exact ih _
      · exact ih _

theorem State.flagCondition_gait (s : State) (d : Condition) (q : Byte) (n : Nat) :
    (s.flagCondition d q n).gait = s.gait := by
  obtain ⟨rep, f, -, he⟩ := State.flagCondition_eq s d q n
  rw [he]
  exact s.mapped_gait f

/-- A masked occurrence leaves the gait as it is. -/
theorem State.occur_gait {s : State} {d : Condition} {x : Lane} (h : ¬ (s.occur d x).2 = true) :
    (s.occur d x).1.gait = s.gait := by
  have hmask : marks s.cond.mask d = true := by simpa [State.occur] using h
  exact (congrArg State.gait (State.raiseCondition_masked _ _ (.inl hmask))).trans
    (s.flagCondition_gait _ _ _)

/-- Any contribution leaves the cause set not empty, and TRACK_ERROR in it where that is the cause. -/
theorem Causes.put_set (d : Causes) (k : DegradeCause) (x : Lane) :
    (d.put k ((d.get k).set x true)).isEmpty = false ∧
      (d.put k ((d.get k).set x true)).has .trackError = (d.has .trackError || decide (k = .trackError)) := by
  have hany : ∀ l : Lanes Bool, (l.set x true).any = true := fun l => by
    cases x <;> simp [Lanes.set, Lanes.any]
  cases k <;> simp [Causes.put, Causes.get, Causes.isEmpty, Causes.has, hany]

theorem State.addCause_gait (s : State) (k : DegradeCause) (x : Lane) :
    (s.addCause k x).gait = s.gait.cause (decide (k = .trackError)) := by
  obtain ⟨hempty, herring⟩ := s.servo.causes.put_set k x
  rw [State.addCause_eq]
  by_cases ht : s.seq.motion = .tracking <;>
    simp [State.gait, State.caused, Gait.cause, Gait.enter, ht, hempty, herring]

theorem State.mapContext_gait (s : State) (f : Context → Context) : (s.mapContext f).gait = s.gait :=
  s.mapActive_gait _

theorem State.mapGuide_gait (s : State) (f : GuideContext → GuideContext) : (s.mapGuide f).gait = s.gait :=
  s.mapActive_gait _

theorem State.mapStats_gait (s : State) (f : Statistics → Statistics) : (s.mapStats f).gait = s.gait :=
  s.mapActive_gait _

theorem State.reportGuide_gait (s : State) (left : GuideState) (cause : GuideCause) :
    (s.reportGuide left cause).gait = s.gait := by
  obtain ⟨rep, he⟩ := State.reportGuide_eq s left cause
  rw [he]
  rfl

theorem State.startAcquiring_gait (s : State) (cause : GuideCause) :
    (s.startAcquiring cause).gait = s.gait := by
  obtain ⟨rep, freeIndex, f, -, he⟩ := State.startAcquiring_eq s cause
  rw [he]
  exact s.mapped_gait f

theorem State.loseGuide_gait (s : State) (left : GuideState) (cause : GuideCause) :
    (s.loseGuide left cause).gait = s.gait := by
  obtain ⟨rep, freeIndex, f, -, he⟩ := State.loseGuide_eq s left cause
  rw [he]
  exact s.mapped_gait f

theorem State.lockGuide_gait (s : State) (left : GuideState) : (s.lockGuide left).gait = s.gait := by
  have hlocked : ∀ f, (s.mapGuide f).usedGuideFree.gait = s.gait := s.mapGuide_gait
  unfold State.lockGuide
  dsimp only
  split
  · exact hlocked _
  · exact (State.reportGuide_gait _ _ _).trans (hlocked _)

theorem State.startGuide_gait (s : State) (left : GuideState) : (s.startGuide left).gait = s.gait := by
  unfold State.startGuide
  dsimp only
  split
  · exact (State.startAcquiring_gait _ _).trans (s.mapGuide_gait _)
  · exact s.mapGuide_gait _

theorem State.stopGuide_gait (s : State) (left : GuideState) (clear : Bool) :
    (s.stopGuide left clear).gait = s.gait := by
  unfold State.stopGuide
  dsimp only
  split
  · exact s.mapGuide_gait _
  · exact (State.reportGuide_gait _ _ _).trans (s.mapGuide_gait _)

theorem State.refillTest_gait (s : State) (id : Nat) (x : Lane) : (s.refillTest id x).gait = s.gait := by
  unfold State.refillTest
  split
  · rfl
  · split <;> rfl

theorem State.telemetryStep_gait (s : State) (x : Lane) : (s.telemetryStep x).gait = s.gait := by
  unfold State.telemetryStep State.copyTelemetry
  dsimp only
  split
  · rfl
  · split
    · rfl
    · split <;> rfl

theorem State.proxyFrame_gait (s : State) (x : Lane) (f : Frame) : (s.proxyFrame x f).gait = s.gait := by
  unfold State.proxyFrame
  repeat' split
  all_goals rfl

theorem State.replyFrame_gait (s : State) (x : Lane) (f : Frame) : (s.replyFrame x f).gait = s.gait := by
  unfold State.replyFrame
  repeat' split
  all_goals rfl

theorem State.startSite_gait (s : State) : s.startSite.gait = s.gait := by
  unfold State.startSite
  repeat' split
  all_goals rfl

theorem State.passTime_gait (s : State) (d : Nat) : (s.passTime d).gait = s.gait := by
  obtain ⟨f, -, he⟩ := State.passTime_eq s d
  rw [he]
  exact s.mapped_gait f

theorem State.handExpiries_gait (s : State) : s.handExpiries.gait = s.gait := by
  rw [State.handExpiries_eq]
  rfl

theorem State.setClock_gait (s : State) (value : Nat) : (s.setClock value).gait = s.gait := by
  unfold State.setClock
  dsimp only
  rw [State.handExpiries_gait]
  split
  · exact s.passTime_gait _
  · rfl

theorem State.tick_gait (s : State) : s.tick.gait = s.gait := by
  have hpass : (if s.time.mount < Config.mountTimeMax then (s.passTime 1).handExpiries else s).gait =
      s.gait := by
    split
    · rw [State.handExpiries_gait, State.passTime_gait]
    · rfl
  exact hpass

/-- The running target off to the shelf leaves the slot and its spell, and nothing else of the gait; what
is left is for the opportunity's slew to clear (R67). -/
theorem State.pushActive_measured {m c : Bool} {s : State} (h : s.Poised m c) :
    s.pushActive.gait.Measured m := by
  obtain ⟨f, -, he⟩ := State.endSpell_eq s
  have hgait : s.pushActive.gait = { s.gait with active := false, spell := false } := by
    unfold State.pushActive
    rw [he]
    cases ha : s.seq.active <;> simp [State.gait, ha]
  exact fun hm => hgait ▸ ⟨fun _ => rfl, (h.measured hm).2⟩

/-! ### Every operation keeps a poised state poised -/

section
variable {m c : Bool} {s t : State}

theorem State.Poised.of_gait (h : s.Poised m c) (he : t.gait = s.gait) : t.Poised m c :=
  (congrArg (Gait.Sound m c) he).mpr h

theorem State.Poised.of_take (h : s.gait.Measured m) (he : t.gait = s.gait.take) : t.Poised m c :=
  (congrArg (Gait.Sound m c) he).mpr (Gait.take_sound h)

/-- A state that is not a running one entered from one that is not. -/
theorem State.Poised.enter_rest (h : s.Poised m c) (hs : s.seq.motion.running = false) {n : MotionState}
    (hn : n.running = false) : (s.enter n).Poised m c :=
  (congrArg (Gait.Sound m c) (s.enter_gait n)).mpr ((h.vacant hs).enter_sound hn)

/-- A state entered from an empty slot. -/
theorem State.enter_poised_of_vacant (h : s.gait.Vacant m c) {n : MotionState} (hn : n.running = false) :
    (s.enter n).Poised m c :=
  (congrArg (Gait.Sound m c) (s.enter_gait n)).mpr (h.enter_sound hn)

theorem activationTest_poised (h : s.Poised m c) (inRule : Bool) (o : Lanes Motion) (n : Nat) :
    (activationTest inRule o n s).Poised m c :=
  (activationTest_gait inRule o n s).elim h.of_gait (State.Poised.of_take h.measured)

theorem State.testActivation_poised (h : s.Poised m c) : s.testActivation.Poised m c :=
  activationTest_poised h _ _ _

theorem State.retestIfHeadChanged_poised (h : s.Poised m c) (before : State) :
    (s.retestIfHeadChanged before).Poised m c := by
  unfold State.retestIfHeadChanged
  split
  · exact h
  · exact State.testActivation_poised h

theorem State.enterIdle_poised (h : s.Poised m c) (hs : s.seq.motion.running = false) (hold : Lanes Int) :
    (s.enterIdle hold).Poised m c :=
  State.testActivation_poised (State.Poised.enter_rest
    (s := { s with seq.hold := hold, planner.current := .none }) h hs rfl)

/-- What an empty slot comes to by an operation that fills it or leaves the gait alone. -/
theorem Gait.Vacant.filled {u v : State} (h : u.gait.Vacant m c) (he : v.gait = u.gait ∨ v.gait = u.gait.take) :
    (v.seq.active.isSome = true → v.Poised m c) ∧ (¬ v.seq.active.isSome = true → v.gait.Vacant m c) := by
  rcases he with he | he
  · exact ⟨fun hv => absurd (hv.symm.trans ((congrArg Gait.active he).trans h.slot)) (by decide),
      fun _ => he ▸ h⟩
  · exact ⟨fun _ => .of_take h.measured he, fun hv => absurd (congrArg Gait.active he) hv⟩

/-- The end-of-target rule from an empty slot: what it tries in turn leaves the slot empty or fills it. -/
theorem State.endRule_poised (h : s.gait.Vacant m c) (o : Lanes Motion) : (s.endRule o).Poised m c := by
  unfold State.endRule
  dsimp only
  split
  · refine State.enter_poised_of_vacant ?_ rfl
    have hleft := State.abandonShelf_gait { s with seq.sup.graceCount := none } .lapse
    exact (congrArg (Gait.Vacant m c) hleft).mpr h
  · have hrestored := Gait.Vacant.filled (u := { s with seq.sup.graceCount := none }) h
      (restoreShelf_gait o s.seq.shelf.length _)
    revert hrestored
    generalize restoreShelf o s.seq.shelf.length { s with seq.sup.graceCount := none } = t
    intro hrestored
    split
    · rename_i hslot
      exact hrestored.1 hslot
    · rename_i hslot
      have hactivated := (hrestored.2 hslot).filled (activationTest_gait true o t.seq.queue.length t)
      split
      · rename_i hslot'
        exact hactivated.1 hslot'
      · rename_i hslot'
        exact State.enter_poised_of_vacant (n := .stopping) (by exact hactivated.2 hslot') rfl

theorem State.departActive_vacant (h : s.Poised m c) (v : Verdict) (why : Reason) (x : Option Lane) :
    (s.departActive v why x).gait.Vacant m c :=
  (congrArg (Gait.Vacant m c) (s.departActive_gait v why x)).mpr (Gait.vacate_vacant h)

theorem State.endActiveFrom_poised (h : s.Poised m c) (o : Lanes Motion) (v : Verdict) (why : Reason) :
    (s.endActiveFrom o v why).Poised m c :=
  State.endRule_poised (State.departActive_vacant h v why none) o

theorem State.endActive_poised (h : s.Poised m c) (v : Verdict) (why : Reason) :
    (s.endActive v why).Poised m c :=
  State.endActiveFrom_poised h _ v why

/-- The run cut off: the target gone, the shelf abandoned, and a state at rest entered. -/
theorem State.cut_vacant (h : s.Poised m c) (v : Verdict) (why reason : Reason) (x : Option Lane) :
    ((s.departActive v why x).abandonShelf reason).gait.Vacant m c :=
  (congrArg (Gait.Vacant m c) (State.abandonShelf_gait _ reason)).mpr (State.departActive_vacant h v why x)

theorem State.haltRun_poised (h : s.Poised m c) (why : Reason) : (s.haltRun why).Poised m c :=
  State.enter_poised_of_vacant (n := .stopping) (by exact State.cut_vacant h .withdrawn why why none) rfl

theorem State.raiseCondition_poised (h : s.Poised m c) (d : Condition) (q : Byte) (n : Nat) :
    (s.raiseCondition d q n).Poised m c := by
  have hflag := h.of_gait (s.flagCondition_gait d q n)
  unfold State.raiseCondition
  dsimp only
  split
  · exact hflag
  · exact State.endActive_poised hflag _ _

theorem State.enterAlarm_poised (h : s.Poised m c) (k : AlarmKind) (axis : Option Lane) :
    (s.enterAlarm k axis).Poised m c :=
  State.enter_poised_of_vacant (n := .alarm)
    (by exact State.cut_vacant h .faulted (.byAlarm k) .aborted axis) rfl

theorem State.raiseAlarm_poised (h : s.Poised m c) (k : AlarmKind) (axis : Option Lane) :
    (s.raiseAlarm k axis).Poised m c := by
  unfold State.raiseAlarm
  split
  · split <;> exact h
  · exact State.enterAlarm_poised (by exact h) k axis

/-- A cause but TRACK_ERROR added in a running state. -/
theorem State.addCause_poised (h : s.Poised m c) (hs : s.seq.motion.running = true) {k : DegradeCause}
    (hk : k ≠ .trackError) (x : Lane) : (s.addCause k x).Poised m c := by
  have hgait := s.addCause_gait k x
  rw [decide_eq_false hk] at hgait
  have hsound := Gait.cause_sound (err := false) (r := (s.gait.cause false).recover) h hs (fun hc => ?_)
  · exact (congrArg (Gait.Sound m c) hgait).mpr hsound
  · rw [Bool.or_false, ← (h.causes hc).recover]
    unfold Gait.cause
    split <;> rfl

/-- TRACK_ERROR added in a running state with its recover measurement. -/
theorem State.addTrackError_poised (h : s.Poised m c) (hs : s.seq.motion.running = true) {x : Lane}
    (ht : t.gait = { (s.addCause .trackError x).gait with recover := true }) : t.Poised m c := by
  rw [State.addCause_gait] at ht
  exact (congrArg (Gait.Sound m c) ht).mpr (Gait.cause_sound h hs (fun _ => by simp))

/-- Fewer contributions to a cause, with a recover measurement such as TRACK_ERROR then asks for. -/
theorem State.lowerCause_poised {k : DegradeCause} {axes : Lanes Bool} (h : s.Poised m c)
    (ht : t.gait = { s.gait with recover := t.gait.recover }) (hcauses : t.servo.causes = s.servo.causes)
    (hfew : s.servo.causes.isEmpty = true → (s.servo.causes.put k axes).isEmpty = true)
    (hrec : c = true → t.gait.recover = (s.servo.causes.put k axes).has .trackError) :
    (t.lowerCause k axes).Poised m c := by
  obtain ⟨hstay, hleave⟩ := Gait.lower_sound h hfew hrec
  have hlowered : State.gait { t with servo.causes := t.servo.causes.put k axes } = { s.gait with
      uncaused := (s.servo.causes.put k axes).isEmpty
      erring := (s.servo.causes.put k axes).has .trackError, recover := t.gait.recover } := by
    have hgait : State.gait { t with servo.causes := t.servo.causes.put k axes } = { t.gait with
        uncaused := (t.servo.causes.put k axes).isEmpty
        erring := (t.servo.causes.put k axes).has .trackError } := rfl
    rw [hgait, hcauses, ht]
  have hm : t.seq.motion = s.seq.motion := congrArg Gait.motion ht
  unfold State.lowerCause
  dsimp only
  rw [hcauses] at hlowered ⊢
  split
  · rename_i hcond
    refine (congrArg (Gait.Sound m c) ((State.enter_gait _ _).trans (congrArg _ hlowered))).mpr ?_
    refine hleave (hm.symm.trans hcond.1) hcond.2.1 _ ?_
    split
    · exact .inl rfl
    · exact .inr rfl
  · rename_i hcond
    refine (congrArg (Gait.Sound m c) hlowered).mpr (hstay fun ⟨hd, hu, hn⟩ => hcond ⟨hm.trans hd, hu, ?_⟩)
    rw [show s.servo.causes.isEmpty = false from hn]
    rfl

/-- A contribution taken out of a cause but TRACK_ERROR. -/
theorem Causes.put_unset (d : Causes) {k : DegradeCause} (hk : k ≠ .trackError) (x : Lane) :
    (d.isEmpty = true → (d.put k ((d.get k).set x false)).isEmpty = true) ∧
      (d.put k ((d.get k).set x false)).has .trackError = d.has .trackError := by
  have hany : ∀ l : Lanes Bool, l.any = false → (l.set x false).any = false := fun l hl => by
    cases x <;> simp_all [Lanes.set, Lanes.any]
  refine ⟨fun hd => ?_, ?_⟩
  · simp only [Causes.isEmpty, Bool.not_eq_true', Bool.or_eq_false_iff] at hd ⊢
    obtain ⟨⟨⟨htrack, hlimit⟩, hrange⟩, hunder⟩ := hd
    cases k <;> simp [Causes.put, Causes.get, htrack, hlimit, hrange, hunder, hany]
  · cases k
    case trackError => exact absurd rfl hk
    all_goals rfl

theorem State.removeCause_poised (h : s.Poised m c) {k : DegradeCause} (hk : k ≠ .trackError) (x : Lane) :
    (s.removeCause k x).Poised m c := by
  obtain ⟨hfew, herring⟩ := s.servo.causes.put_unset hk x
  unfold State.removeCause
  split
  · exact State.lowerCause_poised h rfl rfl hfew (fun hc => (h.causes hc).recover.trans herring.symm)
  · exact h

end

/-! ### The samples, the links and the requests -/

section
variable {m c : Bool} {s : State}

theorem State.goodGuide_poised (h : s.Poised m c) (k : GuideContext) (g : GuideConfig) (f : GuideFields) :
    (s.goodGuide k g f).Poised m c := by
  have hsteps : ∀ (t : State) (azStep elStep : Int),
      ((t.addSteps g azStep elStep).lockGuide k.state).gait = t.gait :=
    fun t _ _ => (State.lockGuide_gait _ _).trans (t.mapGuide_gait _)
  unfold State.goodGuide
  dsimp only
  split
  · exact h.of_gait (hsteps _ _ _)
  · have hflag := fun q => h.of_gait (s.flagCondition_gait .guideReject q 0)
    split
    · exact (hflag _).of_gait (hsteps _ _ _)
    · refine State.endActive_poised ?_ _ _
      split
      · exact hflag _
      · exact (hflag _).of_gait (State.loseGuide_gait _ _ _)

theorem State.takeGuide_poised (h : s.Poised m c) (src : Byte) (payload : List Byte) :
    (s.takeGuide src payload).Poised m c := by
  unfold State.takeGuide
  split
  · split
    · exact h
    · dsimp only
      split
      · exact State.goodGuide_poised (h.of_gait (s.mapGuide_gait _)) _ _ _
      · exact h.of_gait (s.mapGuide_gait _)
  · exact h

theorem State.expireGuideWatch_poised (h : s.Poised m c) : s.expireGuideWatch.Poised m c := by
  unfold State.expireGuideWatch
  split
  · exact h
  · exact h.of_gait (State.loseGuide_gait _ _ _)

section
variable (x : Lane)

theorem State.checkDrive_poised (h : s.Poised m c) (f : SampleFields) : (s.checkDrive x f).Poised m c := by
  have hfault : (if f.fault then s.raiseAlarm .driveFault (some x) else s).Poised m c := by
    split
    · exact State.raiseAlarm_poised h _ _
    · exact h
  unfold State.checkDrive
  dsimp only
  split
  · exact State.raiseAlarm_poised hfault _ _
  · exact hfault

theorem State.evaluateSample_poised (h : s.Poised m c) : s.evaluateSample.1.Poised m c := by
  unfold State.evaluateSample
  split
  · exact h
  · split
    · exact h
    · exact State.endActive_poised h _ _

/-- A masked occurrence leaves a running state running and its cause may join the set; an unmasked one
ends the target (R58, R148). -/
theorem State.occur_poised (h : s.Poised m c) (hs : s.seq.motion.running = true) (d : Condition) :
    (s.occur d x).1.Poised m c ∧ (¬ (s.occur d x).2 = true → ∀ k : DegradeCause, k ≠ .trackError →
      ((s.occur d x).1.addCause k x).Poised m c) := by
  have hraised := State.raiseCondition_poised h d (axisByte (some x)) 0
  refine ⟨hraised, fun hp k hk => State.addCause_poised hraised ?_ hk x⟩
  exact (congrArg (fun g : Gait => g.motion.running) (State.occur_gait hp)).trans hs

theorem State.evaluateChain_poised (h : s.Poised m c) (hs : s.seq.motion.running = true) (k : Chain)
    (t : Nat) : (s.evaluateChain x k t).1.Poised m c := by
  obtain ⟨hraised, hcaused⟩ := State.occur_poised x h hs .underrun
  unfold State.evaluateChain
  split
  · dsimp only
    split
    · exact hraised
    · rename_i hp
      exact hcaused hp .underrunHold (by decide)
  · have hheld : (s.holdLane x none).Poised m c := h
    dsimp only
    split
    · exact State.removeCause_poised hheld (by decide) x
    · exact hheld

theorem State.evaluateLane_poised (h : s.Poised m c) (t : Nat) : (s.evaluateLane x t).1.Poised m c := by
  unfold State.evaluateLane
  split
  · exact h
  · rename_i a _
    dsimp only
    split
    · exact h
    · rename_i k _
      let u : State := { s with chains := mapChain s.chains a.record.targetId x (fun c => c.retire t) }
      have hretired : u.Poised m c := h
      have hrefilled : ∀ v : State, v.Poised m c → (v.refillTest a.record.targetId x).Poised m c :=
        fun v hv => hv.of_gait (v.refillTest_gait _ _)
      split
      · rename_i hcomposing
        have hvalue := State.evaluateChain_poised x hretired
          (MotionState.running_of_composing hcomposing) (k.retire t) t
        split
        · exact hvalue
        · exact hrefilled _ hvalue
      · exact hrefilled _ hretired

theorem State.runningSteps_poised (h : s.Poised m c) (t : Nat) : (s.runningSteps x t).1.Poised m c := by
  unfold State.runningSteps
  split
  · dsimp only
    split
    · exact State.evaluateSample_poised h
    · exact State.evaluateLane_poised x
        ((State.evaluateSample_poised h).of_gait (State.mapContext_gait _ _)) t
  · exact h

theorem State.convertStep_poised (h : s.Poised m c) (t : Nat) (w : Motion) :
    (s.convertStep x t w).1.Poised m c := by
  unfold State.convertStep
  split
  · exact h
  · rename_i hs
    split
    · exact State.removeCause_poised h (by decide) x
    · obtain ⟨hraised, hcaused⟩ := State.occur_poised x h (Bool.not_eq_false _ ▸ hs) .range
      dsimp only
      split
      · exact hraised
      · rename_i hp
        exact hcaused hp .rangeHold (by decide)

theorem State.softStep_poised (h : s.Poised m c) (t : Nat) (w : Motion) :
    (s.softStep x t w).1.Poised m c := by
  unfold State.softStep
  split
  · exact State.convertStep_poised x h t w
  · rename_i hcomposing
    have hs := MotionState.running_of_composing (Bool.not_eq_false _ ▸ hcomposing)
    split
    · have hflagged := s.flagCondition_gait .limitApproach (axisByte (some x)) 0
      have hflag := h.of_gait hflagged
      unfold State.occurLimit
      dsimp only
      split
      · refine State.convertStep_poised x (State.addCause_poised hflag ?_ (by decide) x) t _
        exact (congrArg (fun g : Gait => g.motion.running) hflagged).trans hs
      · exact State.endActiveFrom_poised hflag _ _ _
    · exact State.convertStep_poised x (State.removeCause_poised h (by decide) x) t w

theorem State.commandStep_poised (h : s.Poised m c) (t : Nat) (faulted : Bool) :
    (s.commandStep x t faulted).1.Poised m c := by
  unfold State.commandStep
  split
  · exact h
  · split
    · exact h
    · exact State.softStep_poised x h t _

theorem State.driveSteps_poised (h : s.Poised m c) (tag : Byte) : (s.driveSteps x tag).1.Poised m c := by
  have hcommand := State.commandStep_poised x (State.runningSteps_poised x h
    (s.time.mount + (s.axis x).lead)) (s.time.mount + (s.axis x).lead)
    (s.runningSteps x (s.time.mount + (s.axis x).lead)).2
  unfold State.driveSteps State.placeSetpoint
  dsimp only
  split <;> exact hcommand

theorem State.settleTest_poised (h : s.Poised m c) (hm : s.seq.motion = .settling) (err : Int)
    (braked : Bool) : (s.settleTest x err braked).Poised m c := by
  unfold State.settleTest
  split
  · exact h
  · rename_i k hk
    have hmeasured : ∀ j : Measurement,
        State.gait { s with servo.settle := some j } = s.gait := fun j => by simp [State.gait, hk]
    have hslot : s.gait.active = true := h.slot.trans (by rw [show s.gait.motion = _ from hm]; rfl)
    split
    · exact h.of_gait (hmeasured _)
    · dsimp only
      split
      · refine (congrArg (Gait.Sound m c) ((State.enter_gait _ _).trans
          (congrArg _ (hmeasured _)))).mpr (Gait.enter_sound h.measured ?_ fun hc => ?_)
        · rw [hslot]
          split <;> rfl
        · split
          · rename_i hempty
            exact ⟨fun _ => hempty, nofun, (h.causes hc).recover⟩
          · rename_i hempty
            exact ⟨fun hd => by simp [MotionState.running] at hd, fun _ => Bool.eq_false_iff.mpr hempty,
              (h.causes hc).recover⟩
      · exact h.of_gait (hmeasured _)

theorem State.trackTest_poised (h : s.Poised m c) (hs : s.seq.motion.running = true) (err : Int) :
    (s.trackTest x err).Poised m c := by
  have hraised : (s.occur .trackError x).1.Poised m c := State.raiseCondition_poised h _ _ _
  unfold State.trackTest
  split
  · dsimp only
    split
    · exact hraised
    · rename_i hp
      refine State.addTrackError_poised (x := x) hraised ?_ rfl
      exact (congrArg (fun g : Gait => g.motion.running) (State.occur_gait hp)).trans hs
  · exact h

theorem State.recoverTest_poised (h : s.Poised m c) (hs : s.seq.motion.running = true)
    (herring : s.servo.causes.has .trackError = true) (err : Int) (braked : Bool) :
    (s.recoverTest x err braked).Poised m c := by
  unfold State.recoverTest
  split
  · exact h
  · rename_i k hk
    have hmeasured : ∀ j : Measurement,
        State.Poised m c { s with servo.recover := some j } :=
      fun j => h.of_gait (by simp [State.gait, hk])
    dsimp only
    split
    · split
      · refine State.addTrackError_poised (x := x)
          (hmeasured { beginTime := s.time.mount, seen := .const false }) hs ?_
        rw [State.addCause_gait]
        unfold Gait.cause
        split <;> rfl
      · exact hmeasured _
    · split
      · refine State.lowerCause_poised h rfl rfl (fun hempty => ?_) (fun _ => rfl)
        exfalso
        unfold Causes.isEmpty at hempty
        rw [show s.servo.causes.trackError.any = true from herring] at hempty
        cases hempty
      · exact hmeasured _

theorem State.parkTest_poised (h : s.Poised m c) (hs : s.seq.motion.running = false) :
    s.parkTest.Poised m c := by
  unfold State.parkTest
  split
  · split
    · refine State.Poised.enter_rest (n := .parked) ?_ ?_ rfl
      · exact h
      · exact hs
    · exact h
  all_goals exact h

theorem State.errorTests_poised (h : s.Poised m c) (err : Int) (braked : Bool) :
    (s.errorTests x err braked).Poised m c := by
  have hraised : (s.raiseMaxError x err).Poised m c := h.of_gait (s.mapStats_gait _)
  unfold State.errorTests
  split
  · rename_i hm
    exact State.settleTest_poised x hraised hm _ _
  · rename_i hm
    exact State.trackTest_poised x hraised (congrArg MotionState.running hm) err
  · rename_i hm
    dsimp only
    split
    · rename_i herring
      exact State.recoverTest_poised x hraised (congrArg MotionState.running hm) herring _ _
    · exact hraised
  · rename_i hm
    exact State.parkTest_poised h (congrArg MotionState.running hm)
  all_goals exact h

theorem State.errorStep_poised (h : s.Poised m c) (f : SampleFields) (hold : Bool) :
    (s.errorStep x f hold).Poised m c := by
  unfold State.errorStep
  split
  · exact h
  · dsimp only
    split
    · exact h
    · exact State.errorTests_poised x (by exact h) _ _

theorem State.takeSample_poised (h : s.Poised m c) (tag : Byte) (f : SampleFields) :
    (s.takeSample x tag f).Poised m c := by
  have hrecord := State.checkDrive_poised (s := s.recordSample x f) x h f
  exact (State.errorStep_poised x (State.driveSteps_poised x hrecord tag) f _).of_gait
    (State.telemetryStep_gait _ _)

end

theorem State.sortSite_poised (h : s.Poised m c) (f : Frame) : (s.sortSite f).Poised m c := by
  unfold State.sortSite
  split
  · split
    · unfold State.bufferRequest
      split <;> exact h
    · split
      · exact State.takeGuide_poised h _ _
      · exact h
  · split
    · exact h.of_gait (State.proxyFrame_gait _ _ _)
    · exact h

theorem State.sortAxis_poised (h : s.Poised m c) (x : Lane) (f : Frame) : (s.sortAxis x f).Poised m c := by
  unfold State.sortAxis
  split
  · split
    · split
      · exact State.takeSample_poised x h _ _
      · exact h
    · split
      · exact h.of_gait (State.replyFrame_gait _ _ _)
      · exact h
  · exact h

theorem State.receiveLine_poised (h : s.Poised m c) (p : Port) (input : List LineInput) :
    (s.receiveLine p input).Poised m c := by
  have htaken : ∀ (e : RxEvent) (t : State), t.Poised m c → (State.takeRx p t e).Poised m c := by
    intro e t ht
    cases e with
    | received f =>
      cases p with
      | site => exact State.sortSite_poised ht f
      | axis x => exact State.sortAxis_poised ht x f
    | discarded e => cases p <;> exact ht
  have hfold : ∀ (es : List RxEvent) (t : State), t.Poised m c →
      (es.foldl (State.takeRx p) t).Poised m c := by
    intro es
    induction es with
    | nil => exact fun _ ht => ht
    | cons e es ih => exact fun t ht => ih _ (htaken e t ht)
  exact hfold _ _ (h.of_gait (by cases p <;> rfl))

theorem State.afterClock_poised (h : s.Poised m c) : s.afterClock.Poised m c :=
  State.testActivation_poised (h.of_gait s.expireHanded_gait)

theorem State.pulseLoad_poised (h : s.Poised m c) (value : Nat) : (s.pulseLoad value).Poised m c := by
  unfold State.pulseLoad
  dsimp only
  split
  · exact h
  · refine State.afterClock_poised ?_
    exact h.of_gait (State.setClock_gait { s with time.load := none } value)

/-! ### The bodies of the requests -/

theorem takeRequest_poised {cmd : Instr} {body : List Byte → State → State × Reply}
    (hbody : ∀ p t, t.Poised m c → (body p t).1.Poised m c) (h : s.Poised m c) :
    (takeRequest cmd body s).Poised m c :=
  takeRequest_of_body (fun _ _ ht => ht) hbody h

/-- A request whose body leaves the gait alone. -/
theorem takeRequest_poised_of_gait {cmd : Instr} {body : List Byte → State → State × Reply}
    (hbody : ∀ p t, (body p t).1.gait = t.gait) (h : s.Poised m c) : (takeRequest cmd body s).Poised m c :=
  takeRequest_poised (fun p t ht => ht.of_gait (hbody p t)) h

/-- A request whose body reads and changes nothing. -/
theorem takeRequest_poised_of_state {cmd : Instr} {body : List Byte → State → State × Reply}
    (hbody : ∀ p t, (body p t).1 = t) (h : s.Poised m c) : (takeRequest cmd body s).Poised m c :=
  takeRequest_poised_of_gait (fun p t => by rw [hbody]) h

/-- A preemption: the running target onto the shelf, and the opportunity into the slot (R67). -/
theorem State.preempt_poised (h : s.Poised m c) (r : TargetRecord) (cs : List Chain) :
    (s.preempt r cs).1.Poised m c := by
  unfold State.preempt
  split
  · exact h
  · split
    · exact h
    · dsimp only
      split
      · exact h
      · exact .of_take (State.pushActive_measured (s := { s with chains := s.chains ++ cs }) h)
          (State.takeSlot_gait _ _ _)

section
variable (p : List Byte) (h : s.Poised m c)
include h

theorem submitTargetBody_poised : (submitTargetBody p s).1.Poised m c := by
  unfold submitTargetBody
  split
  · exact h
  · split
    · exact h
    · split
      · exact h
      · exact State.retestIfHeadChanged_poised (s := s.admitRecord _ _) (by exact h) _

theorem submitOpportunityBody_poised : (submitOpportunityBody p s).1.Poised m c := by
  unfold submitOpportunityBody State.queueFirst
  repeat' split
  any_goals exact h
  · exact State.preempt_poised h _ _
  · exact State.retestIfHeadChanged_poised (by exact h) _

theorem withdrawTargetBody_poised : (withdrawTargetBody p s).1.Poised m c := by
  unfold withdrawTargetBody State.withdraw
  split
  · exact h
  · split
    · exact State.endActive_poised h _ _
    · exact h
    · exact State.retestIfHeadChanged_poised (by exact h) _
    · exact h

theorem flushQueueBody_poised : (flushQueueBody p s).1.Poised m c := by
  unfold flushQueueBody
  split
  · exact h
  · exact h.of_gait (s.departAllQueued_gait _ _ _)

theorem runQueueBody_poised : (runQueueBody p s).1.Poised m c := by
  unfold runQueueBody
  split
  · exact h
  · split
    · exact h
    · exact State.testActivation_poised (by exact h)

theorem adjustDwellBody_poised : (adjustDwellBody p s).1.Poised m c := by
  unfold adjustDwellBody State.adjustDwell
  split
  · exact h
  · split
    · dsimp only [accept]
      split
      · exact State.endActive_poised h _ _
      · exact h.of_gait (State.mapContext_gait _ _)
    · dsimp only [accept]
      split <;> exact h
    · split <;> exact h
    · exact h

theorem appendSegmentsBody_poised : (appendSegmentsBody p s).1.Poised m c := by
  unfold appendSegmentsBody State.appendTo
  split
  · exact h
  · split
    · exact h
    · split
      · exact h
      · split
        · exact h
        · dsimp only [accept]
          split
          · exact State.testActivation_poised (by exact h)
          · exact h

theorem State.leaveRest_poised (hs : s.seq.motion.running = false) : s.leaveRest.Poised m c :=
  State.enterIdle_poised (s := { s.releaseAll.startWatches with freeIndex := s.freeIndex + 3 }) h hs _

theorem unparkBody_poised : (unparkBody p s).1.Poised m c := by
  unfold unparkBody
  split
  · exact h
  · split
    · exact h
    · rename_i hm
      split
      · exact h
      · exact State.leaveRest_poised h (by rw [not_not.mp hm]; rfl)

theorem clearAlarmBody_poised : (clearAlarmBody p s).1.Poised m c := by
  unfold clearAlarmBody
  split
  · exact h
  · split
    · exact h
    · rename_i hm
      split
      · exact h
      · exact State.leaveRest_poised (s := { s with cond.first := none, cond.causeSet := [] }) h
          (congrArg MotionState.running (not_not.mp hm))

omit h in
/-- The park slew begun and a stop profile begun, from a state that is not a running one. -/
theorem State.startPark_poised (h : s.Poised m c) (hs : s.seq.motion.running = false) (o : Lanes Motion) :
    (s.startPark o).Poised m c := by
  refine State.Poised.enter_rest (n := .parking) ?_ ?_ rfl
  · exact h
  · exact hs

omit h in
theorem State.startStop_poised (h : s.Poised m c) (hs : s.seq.motion.running = false) (o : Lanes Motion) :
    (s.startStop o).Poised m c := by
  refine State.Poised.enter_rest (n := .stopping) ?_ ?_ rfl
  · exact h
  · exact hs

theorem parkBody_poised : (parkBody p s).1.Poised m c := by
  unfold parkBody
  split
  · exact h
  · split
    · exact h
    · show s.parkNow.Poised m c
      unfold State.parkNow
      split
      case h_5 =>
        rename_i hm
        exact State.startPark_poised h (by rw [hm]; rfl) _
      case h_6 | h_7 | h_8 | h_9 => exact h
      all_goals exact State.haltRun_poised h .park

theorem stopBody_poised : (stopBody p s).1.Poised m c := by
  unfold stopBody
  split
  · exact h
  · split
    · exact h
    · show s.stopNow.Poised m c
      unfold State.stopNow
      split
      case h_5 =>
        rename_i hm
        exact State.startStop_poised (s := { s with seq.parkPending := false }) h
          (congrArg MotionState.running hm) _
      case h_6 | h_7 | h_8 | h_9 => exact h
      all_goals exact State.haltRun_poised h .stop

/-- An effective-offset change: TRACKING becomes SETTLING, and a settle measurement is held anew (R57,
R124). -/
theorem State.offsetChanged_poised : s.offsetChanged.Poised m c := by
  unfold State.offsetChanged
  split
  · rename_i hm
    have hslot : s.gait.active = true := h.slot.trans (congrArg MotionState.running hm)
    refine (congrArg (Gait.Sound m c) (State.enter_gait s .settling)).mpr
      (Gait.enter_sound h.measured hslot fun hc => ⟨fun hd => ?_, nofun, (h.causes hc).recover⟩)
    simp [MotionState.running] at hd
  · rename_i hm
    exact ⟨h.slot, fun hmm => ⟨(h.measures hmm).1, (decide_eq_true hm).symm⟩,
      fun hc => ⟨(h.causes hc).clear, (h.causes hc).held, (h.causes hc).recover⟩⟩
  all_goals exact h

theorem State.setStack_poised (old new : OffsetStack) : (s.setStack old new).Poised m c := by
  have hstack := h.of_gait (s.mapContext_gait (fun k => { k with stack := new }))
  unfold State.setStack
  dsimp only
  split
  · exact hstack
  · exact State.offsetChanged_poised hstack

theorem State.stackFault_poised (i : Indicator) : (s.stackFault i).1.Poised m c :=
  State.raiseCondition_poised (h.of_gait (s.mapContext_gait _)) _ _ _

theorem pushOffsetBody_poised : (pushOffsetBody p s).1.Poised m c := by
  unfold pushOffsetBody
  split
  · exact h
  · split
    · exact h
    · dsimp only
      split
      · exact State.stackFault_poised h _
      · split
        · exact State.setStack_poised h _ _
        · exact h

theorem popOffsetBody_poised : (popOffsetBody p s).1.Poised m c := by
  unfold popOffsetBody
  split
  · exact h
  · split
    · exact h
    · dsimp only
      split
      · exact State.stackFault_poised h _
      · exact State.setStack_poised h _ _

theorem replaceTopOffsetBody_poised : (replaceTopOffsetBody p s).1.Poised m c := by
  unfold replaceTopOffsetBody
  split
  · exact h
  · split
    · exact h
    · dsimp only
      split
      · exact State.stackFault_poised h _
      · split
        · exact State.setStack_poised h _ _
        · exact h

theorem clearOffsetsBody_poised : (clearOffsetsBody p s).1.Poised m c := by
  unfold clearOffsetsBody
  split
  · exact h
  · split
    · exact h
    · exact State.setStack_poised h _ _

theorem setTimeBody_poised : (setTimeBody p s).1.Poised m c := by
  unfold setTimeBody
  split
  · exact h
  · dsimp only
    split
    · exact h
    · have hset := h.of_gait (s.setClock_gait (natAt p 0 8))
      exact State.afterClock_poised (by exact hset)

/-- A soft reset empties the slot in a state that is not a running one (R187). -/
theorem resetControllerBody_poised : (resetControllerBody p s).1.Poised m c := by
  unfold resetControllerBody
  split
  · exact h
  · split
    · exact h
    · rename_i hrest
      have hs : s.seq.motion.running = false := by
        revert hrest
        cases s.seq.motion <;> simp [MotionState.resting, MotionState.running]
      refine ⟨hs.symm, fun hm => ⟨?_, (h.measures hm).2⟩,
        fun hc => ⟨(h.causes hc).clear, (h.causes hc).held, (h.causes hc).recover⟩⟩
      refine (decide_eq_false fun hd => ?_).symm
      rw [show s.seq.motion = _ from hd] at hs
      cases hs

end

end

/-! ### Every command and every microsecond -/

section
variable {m c : Bool} {s : State}

/-- A lapse ends the active target by the grace rule, or begins the park slew (R75, R76). -/
theorem State.lapse_poised (h : s.Poised m c) : s.lapse.Poised m c := by
  have heffect : ∀ t : State, t.Poised m c → t.lapseEffect.Poised m c := by
    intro t ht
    unfold State.lapseEffect
    split
    case h_5 =>
      rename_i hm
      exact State.startPark_poised ht (by rw [hm]; rfl) _
    case h_6 | h_7 | h_8 | h_9 => exact ht
    all_goals
      dsimp only
      split
      · exact State.endActive_poised (by exact ht) _ _
      · exact ht
  exact heffect _ h

theorem State.stopEnded_motion {p : StopPlan} (hp : s.stopEnded = some p) : s.seq.motion = .stopping := by
  unfold State.stopEnded at hp
  split at hp
  · assumption
  · cases hp

theorem State.slewDue_motion (h : s.slewDue = true) : s.seq.motion = .slewing := by
  unfold State.slewDue at h
  split at h
  · assumption
  · cases h

theorem State.completeStop_poised (h : s.Poised m c) {p : StopPlan} (hp : s.stopEnded = some p) :
    (s.completeStop p).Poised m c := by
  have hs : s.seq.motion.running = false := by
    rw [State.stopEnded_motion hp]
    rfl
  unfold State.completeStop
  split
  · exact State.startPark_poised h hs _
  · exact State.enterIdle_poised h hs _

/-- The end of a slew: SETTLING from SLEWING (R55). -/
theorem State.endSlew_poised (h : s.Poised m c) (hm : s.seq.motion = .slewing) :
    (State.enter { s with planner.current := .none } .settling).Poised m c := by
  have hslot : s.gait.active = true := h.slot.trans (congrArg MotionState.running hm)
  refine (congrArg (Gait.Sound m c) (State.enter_gait _ _)).mpr
    (Gait.enter_sound h.measured hslot fun hc => ⟨fun hd => ?_, nofun, (h.causes hc).recover⟩)
  simp [MotionState.running] at hd

theorem State.pinReset_poised (s : State) (straps : BitVec 3) (permit : Bool) :
    (s.pinReset straps permit).Poised m c :=
  ⟨rfl, fun _ => ⟨rfl, rfl⟩, fun _ => ⟨fun _ => rfl, nofun, rfl⟩⟩

theorem exec_poised (i : Instr) (h : s.Poised m c) : ∃ t, exec i s = .next t ∧ t.Poised m c := by
  cases i with
  | submitTarget => exact ⟨_, rfl, takeRequest_poised (fun p _ => submitTargetBody_poised p) h⟩
  | submitOpportunity => exact ⟨_, rfl, takeRequest_poised (fun p _ => submitOpportunityBody_poised p) h⟩
  | withdrawTarget => exact ⟨_, rfl, takeRequest_poised (fun p _ => withdrawTargetBody_poised p) h⟩
  | flushQueue => exact ⟨_, rfl, takeRequest_poised (fun p _ => flushQueueBody_poised p) h⟩
  | runQueue => exact ⟨_, rfl, takeRequest_poised (fun p _ => runQueueBody_poised p) h⟩
  | adjustDwell => exact ⟨_, rfl, takeRequest_poised (fun p _ => adjustDwellBody_poised p) h⟩
  | appendSegments => exact ⟨_, rfl, takeRequest_poised (fun p _ => appendSegmentsBody_poised p) h⟩
  | unpark => exact ⟨_, rfl, takeRequest_poised (fun p _ => unparkBody_poised p) h⟩
  | park => exact ⟨_, rfl, takeRequest_poised (fun p _ => parkBody_poised p) h⟩
  | stop => exact ⟨_, rfl, takeRequest_poised (fun p _ => stopBody_poised p) h⟩
  | clearAlarm => exact ⟨_, rfl, takeRequest_poised (fun p _ => clearAlarmBody_poised p) h⟩
  | pushOffset => exact ⟨_, rfl, takeRequest_poised (fun p _ => pushOffsetBody_poised p) h⟩
  | popOffset => exact ⟨_, rfl, takeRequest_poised (fun p _ => popOffsetBody_poised p) h⟩
  | replaceTopOffset => exact ⟨_, rfl, takeRequest_poised (fun p _ => replaceTopOffsetBody_poised p) h⟩
  | clearOffsets => exact ⟨_, rfl, takeRequest_poised (fun p _ => clearOffsetsBody_poised p) h⟩
  | setTime => exact ⟨_, rfl, takeRequest_poised (fun p _ => setTimeBody_poised p) h⟩
  | resetController => exact ⟨_, rfl, takeRequest_poised (fun p _ => resetControllerBody_poised p) h⟩
  | readTarget => exact ⟨_, rfl, takeRequest_poised_of_state readTargetBody_state h⟩
  | readOutcome => exact ⟨_, rfl, takeRequest_poised_of_state readOutcomeBody_state h⟩
  | readCaptures => exact ⟨_, rfl, takeRequest_poised_of_state readCapturesBody_state h⟩
  | readChain => exact ⟨_, rfl, takeRequest_poised_of_state readChainBody_state h⟩
  | readTerms => exact ⟨_, rfl, takeRequest_poised_of_state readTermsBody_state h⟩
  | readOffsets => exact ⟨_, rfl, takeRequest_poised_of_state readOffsetsBody_state h⟩
  | readConditions => exact ⟨_, rfl, takeRequest_poised_of_state readConditionsBody_state h⟩
  | peekTime => exact ⟨_, rfl, takeRequest_poised_of_state peekTimeBody_state h⟩
  | unknownRequest => exact ⟨_, rfl, takeRequest_poised_of_state (fun _ _ => rfl) h⟩
  | holdQueue =>
    exact ⟨_, rfl, takeRequest_poised_of_gait (fun p t => by unfold holdQueueBody; split <;> rfl) h⟩
  | closeChain =>
    refine ⟨_, rfl, takeRequest_poised_of_gait (fun p t => ?_) h⟩
    unfold closeChainBody State.closeChain
    repeat' split
    all_goals rfl
  | truncateChain =>
    refine ⟨_, rfl, takeRequest_poised_of_gait (fun p t => ?_) h⟩
    unfold truncateChainBody State.truncateChain
    repeat' split
    all_goals rfl
  | startGuiding =>
    refine ⟨_, rfl, takeRequest_poised_of_gait (fun p t => ?_) h⟩
    unfold startGuidingBody
    repeat' split
    case h_2.isFalse.isFalse => exact t.startGuide_gait _
    all_goals rfl
  | stopGuiding =>
    refine ⟨_, rfl, takeRequest_poised_of_gait (fun p t => ?_) h⟩
    unfold stopGuidingBody
    repeat' split
    case h_2 => exact t.stopGuide_gait _ _
    all_goals rfl
  | clearConditions =>
    refine ⟨_, rfl, takeRequest_poised_of_gait (fun p t => ?_) h⟩
    unfold clearConditionsBody
    split
    · rfl
    · split
      · rfl
      · exact t.mapContext_gait (fun k => k.clearFlags _)
  | writeTerm =>
    refine ⟨_, rfl, takeRequest_poised_of_gait (fun p t => ?_) h⟩
    unfold writeTermBody
    dsimp only
    repeat' split
    all_goals rfl
  | deleteTerm =>
    refine ⟨_, rfl, takeRequest_poised_of_gait (fun p t => ?_) h⟩
    unfold deleteTermBody
    dsimp only
    repeat' split
    all_goals rfl
  | commitTerms =>
    refine ⟨_, rfl, takeRequest_poised_of_gait (fun p t => ?_) h⟩
    unfold commitTermsBody
    split
    · rfl
    · split <;> rfl
  | configureGuide =>
    exact ⟨_, rfl, takeRequest_poised_of_gait (fun p t => by unfold configureGuideBody; split <;> rfl) h⟩
  | setMasks =>
    exact ⟨_, rfl, takeRequest_poised_of_gait (fun p t => by unfold setMasksBody; split <;> rfl) h⟩
  | loadAxes =>
    refine ⟨_, rfl, takeRequest_poised_of_gait (fun p t => ?_) h⟩
    unfold loadAxesBody
    repeat' split
    all_goals rfl
  | loadLimits =>
    refine ⟨_, rfl, takeRequest_poised_of_gait (fun p t => ?_) h⟩
    unfold loadLimitsBody
    dsimp only
    repeat' split
    all_goals rfl
  | lockLimits =>
    refine ⟨_, rfl, takeRequest_poised_of_gait (fun p t => ?_) h⟩
    unfold lockLimitsBody
    repeat' split
    all_goals rfl
  | loadForwarding =>
    refine ⟨_, rfl, takeRequest_poised_of_gait (fun p t => ?_) h⟩
    unfold loadForwardingBody
    dsimp only
    repeat' split
    all_goals rfl
  | setReportDestination =>
    refine ⟨_, rfl, takeRequest_poised_of_gait (fun p t => ?_) h⟩
    unfold setReportDestinationBody
    repeat' split
    all_goals rfl
  | enableSupervision =>
    refine ⟨_, rfl, takeRequest_poised_of_gait (fun p t => ?_) h⟩
    unfold enableSupervisionBody
    repeat' split
    all_goals rfl
  | setTimeAtPulse =>
    exact ⟨_, rfl, takeRequest_poised_of_gait (fun p t => by unfold setTimeAtPulseBody; split <;> rfl) h⟩
  | readTime =>
    exact ⟨_, rfl, takeRequest_poised_of_gait (fun p t => by unfold readTimeBody; split <;> rfl) h⟩
  | readStatus =>
    exact ⟨_, rfl, takeRequest_poised_of_gait (fun p t => by unfold readStatusBody; split <;> rfl) h⟩
  | requestFrameReception f | guideFrame f | proxyServiceFrame f =>
    exact ⟨_, rfl, State.receiveLine_poised h .site (frameLine f)⟩
  | sample x f | serviceReply x f => exact ⟨_, rfl, State.receiveLine_poised h (.axis x) (frameLine f)⟩
  | linkError p input => exact ⟨_, rfl, State.receiveLine_poised h p input⟩
  | waitIdleReturnToHunt p =>
    refine ⟨_, rfl, ?_⟩
    split
    · exact State.receiveLine_poised h _ _
    · exact h
  | siteTransmitStart =>
    refine ⟨_, rfl, ?_⟩
    split
    · exact h.of_gait s.startSite_gait
    · exact h
  | axisTransmitStart x =>
    refine ⟨_, rfl, ?_⟩
    split <;> exact h
  | frameTransmissionEnd p => exact ⟨_, rfl, by cases p <;> exact h⟩
  | pinReset straps permit =>
    refine ⟨_, rfl, ?_⟩
    split
    · exact s.pinReset_poised _ _
    · exact State.raiseAlarm_poised (s.pinReset_poised _ _) _ _
  | permitLost => exact ⟨_, rfl, State.raiseAlarm_poised (s := { s with permit := false }) h _ _⟩
  | permitRise => exact ⟨_, rfl, h⟩
  | encoderSilent x =>
    refine ⟨_, rfl, ?_⟩
    split
    · exact State.raiseAlarm_poised h _ _
    · exact h
  | pulseEdge =>
    refine ⟨_, rfl, ?_⟩
    split
    · exact h
    · exact State.pulseLoad_poised (s := s.capturePulse) h _
  | shutterEdge e =>
    have hcapture : (s.captureEdge e).Poised m c := h.of_gait (s.mapActive_gait _)
    refine ⟨_, rfl, ?_⟩
    split
    · exact h
    · dsimp only
      split
      · exact State.raiseCondition_poised hcapture _ _ _
      · exact hcapture
  | supervisionLapse =>
    refine ⟨_, rfl, ?_⟩
    split
    · exact State.lapse_poised h
    · exact h
  | graceExpiry | guideLost | dwellCompletion =>
    refine ⟨_, rfl, ?_⟩
    split
    · exact State.endActive_poised h _ _
    · exact h
  | guideWatchExpiry =>
    refine ⟨_, rfl, ?_⟩
    split
    · exact State.expireGuideWatch_poised h
    · exact h
  | slewCompletion =>
    refine ⟨_, rfl, ?_⟩
    split
    · exact State.endSlew_poised h (State.slewDue_motion ‹_›)
    · exact h
  | stopCompletion =>
    refine ⟨_, rfl, ?_⟩
    split
    · exact State.completeStop_poised h ‹_›
    · exact h
  | windowExpiry id =>
    refine ⟨_, rfl, ?_⟩
    split
    · exact State.retestIfHeadChanged_poised (h.of_gait s.expireHanded_gait) _
    · exact h
  | startTimeReached =>
    refine ⟨_, rfl, ?_⟩
    unfold State.takeStart
    split
    · exact State.testActivation_poised (by exact h)
    · exact h

theorem step_poised {t : State} (h : s.Poised m c) (hstep : step s = .next t) : t.Poised m c := by
  rcases step_command_or_tick hstep with ⟨i, q, he⟩ | rfl
  · exact exec_of_next (exec_poised i (s := { s with pending := q }) (by exact h)) he
  · exact h.of_gait s.tick_gait

end

/-- Settles O7: no command enters a running state but with the slot occupied, and none leaves one but as
the slot empties. -/
theorem activeSlotMatchesMotion : Obligations.ActiveSlotMatchesMotion := fun s t h hstep =>
  t.slotMatches_iff.mpr (step_poised (s.slotMatches_iff.mp h) hstep)

/-- Settles O13: the measurements are begun and dropped by the entries and the departures, and the causes by
the departures and the operations that weigh them. -/
theorem measuresAndCausesMatchMotion : Obligations.MeasuresAndCausesMatchMotion :=
  ⟨fun s t hslot h hstep =>
      (t.poised_measures_iff.mp (step_poised (s.poised_measures_iff.mpr ⟨hslot, h⟩) hstep)).2,
    fun s t hslot h hstep =>
      (t.poised_causes_iff.mp (step_poised (s.poised_causes_iff.mpr ⟨hslot, h⟩) hstep)).2⟩

/-! ## Run Queue and Hold Queue (R49) -/

theorem runQueueBody_hold {s : State} (h : s.seq.mode = .hold) :
    runQueueBody [] s = accept (State.testActivation { s with seq.mode := .run }) [modeCode .run] := by
  unfold runQueueBody
  rw [if_neg (not_not.mpr rfl), if_neg (by rw [h]; decide)]

/-- Where no activation test can follow, Run Queue sets the mode (R49, R51). -/
theorem runQueueBody_silent {s : State} (h : s.seq.motion ≠ .idle ∨ s.seq.queue = [] ∨
    s.time.valid = false ∨ s.seq.mode = .run) :
    runQueueBody [] s = ({ s with seq.mode := .run }, okReply [1]) := by
  cases hm : s.seq.mode with
  | run =>
    have hkept : ({ s with seq.mode := .run } : State) = s := by rw [← hm]
    rw [hkept]
    unfold runQueueBody
    rw [if_neg (not_not.mpr rfl), if_pos hm]
    rfl
  | hold =>
    have htest : State.testActivation { s with seq.mode := .run } = { s with seq.mode := .run } := by
      rcases h with h | h | h | h
      · exact State.testActivation_silent (.inl h)
      · exact activationTest_noHead (s := { s with seq.mode := .run }) (.inl h) _ _ _
      · exact activationTest_noHead (s := { s with seq.mode := .run }) (.inr (.inr (.inl h))) _ _ _
      · cases h.symm.trans hm
    rw [runQueueBody_hold hm, htest]
    rfl

/-- Settles O23: Hold Queue sets the mode and no more, and Run Queue sets it and tests activation where it
was HOLD. -/
theorem runAndHoldSetQueueMode : Obligations.RunAndHoldSetQueueMode := by
  intro s r rest
  refine ⟨fun h => exec_answers h rfl rfl rfl, fun h hsilent => ?_, fun h hmode => ?_⟩
  · exact exec_answers (u := { s with seq.mode := .run }) h rfl rfl
      (runQueueBody_silent (s := { s with site.requests := rest }) hsilent)
  · refine ⟨_, ?_, rfl⟩
    have htaken := takeRequest_asks (body := runQueueBody) h (cmd := .runQueue) rfl
    rw [runQueueBody_hold (s := { s with site.requests := rest }) hmode] at htaken
    exact congrArg Host.Outcome.next htaken

/-! ## Load Forwarding and Enable Supervision (R74, R176) -/

theorem natAt_one {p : List Byte} {i : Nat} {b : Byte} (h : p[i]? = some b) : natAt p i 1 = b.toNat := by
  obtain ⟨hi, hb⟩ := List.getElem?_eq_some_iff.mp h
  have hfield : fieldAt p i 1 = [b] := by
    rw [fieldAt, List.drop_eq_getElem_cons hi, hb]
    rfl
  rw [natAt, hfield]
  simp [beNat]

theorem ownOrProxy_iff (address b : Byte) :
    ownOrProxy address b = true ↔ b = address ∨ b = 0x30 ∨ b = 0x31 ∨ b = 0x32 := by
  have hproxy : (proxyAxis b).isSome = true ↔ b = 0x30 ∨ b = 0x31 ∨ b = 0x32 := by
    unfold proxyAxis
    repeat' split
    all_goals simp_all
  rw [ownOrProxy, Bool.or_eq_true, decide_eq_true_iff, hproxy]

/-- The telemetry destination that the parameters of a Load Forwarding name, by its presence byte (R176). -/
theorem telemetryDest_eq {s : State} {p : List Byte} {dest : Option Byte} (hl : 2 ≤ p.length)
    (h : (natAt p 0 1 = 0 ∧ dest = none) ∨
      (natAt p 0 1 = 1 ∧ dest = p[1]? ∧ dest ≠ some s.site.address ∧ dest ≠ some 0x30 ∧
        dest ≠ some 0x31 ∧ dest ≠ some 0x32)) :
    ifMarked (decide (natAt p 0 1 = 1)) (BitVec.ofNat 8 (natAt p 1 1)) = dest ∧ natAt p 0 1 ≤ 1 ∧
      ¬ dest.any (ownOrProxy s.site.address) = true := by
  rcases h with ⟨hmark, rfl⟩ | ⟨hmark, hdest, hown, haz, hel, hrot⟩
  · exact ⟨by rw [hmark]; rfl, by omega, Bool.false_ne_true⟩
  · have hb : p[1]? = some p[1] := List.getElem?_eq_getElem (by omega)
    rw [hb] at hdest
    subst hdest
    refine ⟨?_, by omega, fun hany => ?_⟩
    · rw [hmark, natAt_one hb, BitVec.ofNat_toNat]
      exact congrArg some (BitVec.setWidth_eq _)
    · rcases (ownOrProxy_iff _ _).mp hany with he | he | he | he
      · exact hown (congrArg some he)
      · exact haz (congrArg some he)
      · exact hel (congrArg some he)
      · exact hrot (congrArg some he)

theorem loadForwardingBody_of_valid {s : State} {p : List Byte} {table : List ForwardEntry}
    {dest : Option Byte} (hl : p.length = 3 + 4 * natAt p 2 1) (hcount : natAt p 2 1 ≤ 16)
    (hdest : ifMarked (decide (natAt p 0 1 = 1)) (BitVec.ofNat 8 (natAt p 1 1)) = dest)
    (hmark : natAt p 0 1 ≤ 1) (hforeign : ¬ dest.any (ownOrProxy s.site.address) = true)
    (htable : forwardingOf p = some table) :
    loadForwardingBody p s = ({ s with site.forwarding := table, site.telemetryDest := dest },
      okReply (natBytes 1 table.length)) := by
  have hcount' : ¬ Config.forwardingSize < natAt p 2 1 := Nat.not_lt.mpr hcount
  unfold loadForwardingBody
  dsimp only
  rw [hdest, if_neg (by simp [hl.symm, hcount', hmark, hforeign]), htable]
  rfl

theorem enableSupervisionBody_of_valid {s : State} {p : List Byte} (hl : p.length = 4) :
    (s.seq.sup.locked = true → enableSupervisionBody p s = refuse s .locked) ∧
      (s.seq.sup.locked = false → (natAt p 0 2 = 0 ∨ 600 < natAt p 0 2 ∨ 3600 < natAt p 2 2) →
        enableSupervisionBody p s = refuse s .badParam) ∧
      (s.seq.sup.locked = false → ¬ (natAt p 0 2 = 0 ∨ 600 < natAt p 0 2 ∨ 3600 < natAt p 2 2) →
        enableSupervisionBody p s = accept (s.superviseWith (natAt p 0 2) (natAt p 2 2)) []) := by
  have hopen : s.seq.sup.locked = false → ¬ s.seq.sup.locked = true := fun h => Bool.eq_false_iff.mp h
  unfold enableSupervisionBody
  rw [if_neg (not_not.mpr hl)]
  exact ⟨fun h => if_pos h, fun h hbad => (if_neg (hopen h)).trans (if_pos hbad),
    fun h hgood => (if_neg (hopen h)).trans (if_neg hgood)⟩

/-- Settles O44: the tables and values named are stored, and the lock is looked at before the ranges. -/
theorem forwardingAndSupervisionAreSet : Obligations.ForwardingAndSupervisionAreSet := by
  intro s r rest p
  let taken : State := { s with site.requests := rest }
  refine ⟨fun table dest h hl hcount hd htable => ?_, fun h hl => ?_⟩
  · obtain ⟨hdest, hmark, hforeign⟩ := telemetryDest_eq (s := taken) (by omega) hd
    exact exec_answers (u := { s with site.forwarding := table, site.telemetryDest := dest }) h rfl rfl
      (loadForwardingBody_of_valid (s := taken) hl hcount hdest hmark hforeign htable)
  · obtain ⟨hlocked, hbad, hgood⟩ := enableSupervisionBody_of_valid (s := taken) hl
    refine ⟨fun hlow hhigh hgrace hopen => ?_, fun hopen hout => ?_, fun hshut => ?_⟩
    · exact exec_answers (u := s.superviseWith (natAt p 0 2) (natAt p 2 2)) h rfl rfl
        (hgood hopen (by omega))
    · exact exec_answers h rfl rfl (hbad hopen hout)
    · exact exec_answers h rfl rfl (hlocked hshut)

/-! ## The ends of a dwell, of a slew and of a stop profile (R55, R61, R62, R71) -/

/-- A change of motion state at which no waiting commit is taken (R47, R103). -/
theorem State.moved_quiet (s : State) {m : MotionState} (hm : m ∉ [.slewing, .stopping, .idle]) :
    s.moved m = { s with
      seq.motion := m
      rep := offerReport s.rep (.phaseChange s.seq.motion m) s.time.mount s.activeId } := by
  unfold State.moved
  exact if_neg (fun h => hm h.1)

theorem State.dwellCounts_of_tracking {s : State} {a : Running} (ha : s.seq.active = some a)
    (hm : s.seq.motion = .tracking) (hg : a.record.guideMode ≠ .required ∨ a.ctx.guide.state = .locked) :
    s.dwellCounts = true := by
  unfold State.dwellCounts
  simpa [ha, hm] using hg

theorem State.enter_settling_of_slewing {s : State} (hm : s.seq.motion = .slewing) :
    s.enter .settling = { s with
      seq.motion := .settling
      servo.settle := some { beginTime := s.time.mount, seen := .const false }
      rep := offerReport s.rep (.phaseChange .slewing .settling) s.time.mount s.activeId } := by
  simp only [State.enter, State.leaveMotion, hm]
  rfl

theorem State.slewDue_iff {s : State} {p : SlewPlan} (hm : s.seq.motion = .slewing)
    (hp : s.planner.current = .slew p) : s.slewDue = true ↔ p.arrival ≤ s.time.mount := by
  simp [State.slewDue, hm, hp]

theorem State.stopEnded_eq {s : State} {p : StopPlan} (hm : s.seq.motion = .stopping)
    (hp : s.planner.current = .stop p) :
    s.stopEnded = if p.endTime ≤ s.time.mount then some p else none := by
  simp only [State.stopEnded, hm, hp]

theorem exec_stopCompletion (s : State) :
    (∀ p, s.stopEnded = some p → exec .stopCompletion s = .next (s.completeStop p)) ∧
      (s.stopEnded = none → exec .stopCompletion s = .next s) := by
  have hexec : exec .stopCompletion s = execStopCompletion s := rfl
  rw [hexec, execStopCompletion]
  exact ⟨fun p hp => by rw [hp], fun hp => by rw [hp]⟩

/-- An ended stop profile with park pending leads on to the park slew from its end points (R71). -/
theorem State.completeStop_park {s : State} (hm : s.seq.motion = .stopping) (hpark : s.seq.parkPending = true)
    (p : StopPlan) : s.completeStop p = State.moved
      (s.parkStarted (.of (fun x => { pos := (p.axes.get x).restPos, vel := 0 }))) .parking := by
  unfold State.completeStop
  rw [if_pos hpark]
  exact State.startPark_eq s s rfl rfl rfl (fun hd => by cases hm.symm.trans hd)
    (fun hs => by cases hm.symm.trans hs) _

/-- An ended stop profile without park pending leads to IDLE at its end points, and where the activation
test cannot act the state stays there (R48, R71). -/
theorem State.completeStop_idle {s : State} (hpark : s.seq.parkPending = false) (p : StopPlan) :
    s.completeStop p = s.enterIdle p.endPoints := by
  unfold State.completeStop
  exact if_neg (by rw [hpark]; exact Bool.false_ne_true)

theorem State.enterIdle_agrees (s : State) (hold : Lanes Int) :
    State.Agrees { s with seq.hold := hold } (s.enterIdle hold) :=
  have hleft : State.Agrees { s with seq.hold := hold }
      { s with seq.hold := hold, planner.current := .none } := by constructor <;> rfl
  (hleft.trans (State.enter_agrees _ _)).trans (activationTest_spec _ _ _ _).1

theorem State.enterIdle_silent {s : State} (h : s.seq.queue = [] ∨ s.seq.mode = .hold) (hold : Lanes Int) :
    s.enterIdle hold = State.enter { s with seq.hold := hold, planner.current := .none } .idle := by
  obtain ⟨hqueue, -, -, -, hmode, -⟩ :=
    State.enter_lists { s with seq.hold := hold, planner.current := .none } .idle
  refine activationTest_noHead ?_ _ _ _
  rcases h with h | h
  · exact .inl (hqueue.trans h)
  · exact .inr (.inl (hmode.trans h))

/-- Settles O57: each completion is the shared operation that its phase ends with, taken where it is due. -/
theorem completionsEndTheirPhase : Obligations.CompletionsEndTheirPhase := by
  intro s
  refine ⟨fun a ha hm hg => ?_, fun p hm hp => ?_, fun p hm hp => ?_⟩
  · have hcounts := State.dwellCounts_of_tracking ha hm hg
    have hdue : s.dwellDue = true ↔ a.ctx.dwellRemaining = 0 := by
      simp [State.dwellDue, hcounts, ha]
    refine ⟨fun hd => ⟨s.endActive .completed .none, ?_, State.endActiveFrom_ended ha _ _ _⟩, fun hd => ?_⟩
    · exact congrArg Host.Outcome.next (if_pos (hdue.mpr hd))
    · exact congrArg Host.Outcome.next (if_neg (mt hdue.mp hd))
  · have hdue := State.slewDue_iff hm hp
    refine ⟨fun hd => ?_, fun hd => ?_⟩
    · exact congrArg Host.Outcome.next ((if_pos (hdue.mpr hd)).trans (State.enter_settling_of_slewing hm))
    · exact congrArg Host.Outcome.next (if_neg (mt hdue.mp (by omega)))
  · obtain ⟨hdone, hwaits⟩ := exec_stopCompletion s
    have hended := State.stopEnded_eq hm hp
    refine ⟨fun hd => ?_, fun hd hpark => ?_, fun hd hpark => ?_⟩
    · exact hwaits (hended.trans (if_neg (by omega)))
    · replace hdone := hdone p (hended.trans (if_pos hd))
      rw [State.completeStop_park hm hpark, State.moved_quiet _ (by decide)] at hdone
      refine ⟨_, hdone, rfl, rfl, rfl, rfl, rfl, rfl, rfl, ?_⟩
      rw [← hm]
      rfl
    · replace hdone := hdone p (hended.trans (if_pos hd))
      rw [State.completeStop_idle hpark] at hdone
      have hagrees := s.enterIdle_agrees p.endPoints
      refine ⟨_, hdone, fun x => ?_, ?_, fun hquiet => ?_, hagrees.time, hagrees.site, hagrees.ports⟩
      · rw [hagrees.hold]
        exact Lanes.get_map _ _ _
      · rcases s.enterIdle_spec p.endPoints with ⟨hslews, -⟩ | ⟨hidle, -⟩
        · exact .inr hslews
        · exact .inl hidle
      · rw [State.enterIdle_silent hquiet]
        exact ⟨State.enter_motion _ _, by rw [State.enter_current], (State.enter_lists _ _).1⟩

/-! ## The supervision lapse and the grace (R75, R76) -/

/-- A lapse before its effect by motion state: reported, the queue held, and the timer stopped (R75). -/
def State.lapsing (s : State) : State :=
  { s with
    rep := offerReport s.rep (.supervisionLapse s.seq.motion s.seq.sup.interval s.seq.sup.grace)
      s.time.mount s.activeId
    seq.mode := .hold
    seq.sup := { s.seq.sup with lapsed := true, timer := none } }

/-- A lapse in a running state before the grace is looked at: park pending, and the grace count begun
(R75). -/
def State.gracing (s : State) : State := { s with seq.parkPending := true, seq.sup.graceCount := some 0 }

theorem State.lapseDue_iff {s : State} {timer : Nat} (hon : s.seq.sup.on = true)
    (ht : s.seq.sup.timer = some timer) :
    s.lapseDue = true ↔ timer + s.seq.sup.interval * 1000000 ≤ s.time.mount := by
  unfold State.lapseDue
  rw [Bool.and_eq_true, Option.any_eq_true]
  refine ⟨fun ⟨_, t, ht', hd⟩ => ?_, fun hd => ⟨hon, timer, ht, decide_eq_true hd⟩⟩
  rw [← Option.some.inj (ht.symm.trans ht')] at hd
  exact of_decide_eq_true hd

theorem exec_supervisionLapse (s : State) :
    (s.lapseDue = true → exec .supervisionLapse s = .next s.lapsing.lapseEffect) ∧
      (¬ s.lapseDue = true → exec .supervisionLapse s = .next s) :=
  ⟨fun h => congrArg Host.Outcome.next (if_pos h), fun h => congrArg Host.Outcome.next (if_neg h)⟩

theorem State.lapseEffect_running {s : State} (h : s.seq.motion.running = true) :
    s.lapseEffect = if s.gracing.graceDue then s.gracing.expireGrace else s.gracing := by
  unfold State.lapseEffect
  split
  case h_5 | h_6 | h_7 | h_8 | h_9 =>
    rename_i hm
    cases h.symm.trans (congrArg MotionState.running hm)
  all_goals rfl

theorem State.lapseEffect_stopping {s : State} (h : s.seq.motion = .stopping) :
    s.lapseEffect = { s with seq.parkPending := true } := by
  simp only [State.lapseEffect, h]

theorem State.lapseEffect_rest {s : State} (h : s.seq.motion ∈ [.parking, .parked, .alarm]) :
    s.lapseEffect = s := by
  simp only [List.mem_cons, List.not_mem_nil, or_false] at h
  unfold State.lapseEffect
  rcases h with h | h | h <;> simp only [h]

theorem State.lapseEffect_idle {s : State} (h : s.seq.motion = .idle) :
    s.lapseEffect = (s.parkStarted s.holdMotion).moved .parking := by
  have heffect : s.lapseEffect = s.startPark s.present := by simp only [State.lapseEffect, h]
  rw [heffect, State.present_of_idle h]
  exact State.startPark_eq s s rfl rfl rfl (fun hd => by cases h.symm.trans hd)
    (fun hs => by cases h.symm.trans hs) _

theorem State.graceDue_iff {s : State} {a : Running} {elapsed : Nat} (ha : s.seq.active = some a)
    (hg : s.seq.sup.graceCount = some elapsed) :
    s.graceDue = true ↔ s.seq.sup.grace * 1000000 ≤ elapsed := by
  unfold State.graceDue
  rw [Bool.and_eq_true, Option.any_eq_true]
  refine ⟨fun ⟨_, e, hg', hd⟩ => ?_, fun hd => ⟨by rw [ha]; rfl, elapsed, hg, decide_eq_true hd⟩⟩
  rw [← Option.some.inj (hg.symm.trans hg')] at hd
  exact of_decide_eq_true hd

/-- A grace that is not 0 is not over as it begins (R76). -/
theorem State.graceDue_gracing {s : State} (h : s.seq.sup.grace ≠ 0) : s.gracing.graceDue = false := by
  have hany : s.gracing.seq.sup.graceCount.any
      (fun e => decide (s.gracing.seq.sup.grace * 1000000 ≤ e)) = false := by
    refine (Option.any_eq_false _ _).mpr fun e he => decide_eq_false ?_
    have hzero : 0 = e := Option.some.inj he
    have hgrace : s.gracing.seq.sup.grace ≠ 0 := h
    omega
  unfold State.graceDue
  rw [hany, Bool.and_false]

/-- Settles O56: a due lapse is `State.lapsing` with its effect by motion state, and the grace rule ends the
target that is active. -/
theorem lapseHoldsQueueAndParks : Obligations.LapseHoldsQueueAndParks := by
  intro s
  refine ⟨fun timer hon ht => ?_, fun a elapsed ha hg => ?_⟩
  · obtain ⟨hlapse, hwaits⟩ := exec_supervisionLapse s
    have hdue := State.lapseDue_iff hon ht
    refine ⟨fun hd => hwaits (mt hdue.mp (by omega)), fun hd => ?_⟩
    replace hlapse := hlapse (hdue.mpr hd)
    refine ⟨fun hm hgrace => ?_, fun a hm hgrace ha => ?_, fun hm => ?_, fun hm => ?_, fun hm => ?_⟩
    · rw [State.lapseEffect_running (s := s.lapsing) hm,
        if_neg (Bool.eq_false_iff.mp (State.graceDue_gracing (s := s.lapsing) hgrace))] at hlapse
      exact hlapse
    · have hdone : s.lapsing.gracing.graceDue = true :=
        (State.graceDue_iff (s := s.lapsing.gracing) (elapsed := 0) ha rfl).mpr
          (Nat.le_of_eq (congrArg (· * 1000000) hgrace))
      rw [State.lapseEffect_running (s := s.lapsing) hm, if_pos hdone] at hlapse
      exact ⟨_, hlapse, State.endActiveFrom_ended (s := s.lapsing.gracing) ha _ _ _⟩
    · exact hlapse.trans (congrArg Host.Outcome.next (State.lapseEffect_stopping (s := s.lapsing) hm))
    · exact hlapse.trans (congrArg Host.Outcome.next (State.lapseEffect_rest (s := s.lapsing) hm))
    · exact hlapse.trans (congrArg Host.Outcome.next (State.lapseEffect_idle (s := s.lapsing) hm))
  · have hdue := State.graceDue_iff ha hg
    refine ⟨fun hd => ⟨s.endActive .withdrawn .lapse, ?_, State.endActiveFrom_ended ha _ _ _⟩, fun hd => ?_⟩
    · exact congrArg Host.Outcome.next (if_pos (hdue.mpr hd))
    · exact congrArg Host.Outcome.next (if_neg (mt hdue.mp (by omega)))

/-! ## A frame on the site port (R75, R77, R170, R172) -/

/-- A whole frame on the site's line, to a hunting receiver, is sorted (R169, R170). -/
theorem State.receiveLine_siteFrame {s : State} {f : Frame} (hrx : s.site.rx = .hunt)
    (hf : f.payload.length ≤ Config.payloadSize) : s.receiveLine .site (frameLine f) = s.sortSite f := by
  have hrun : rxRun (s.receiver .site) (frameLine f) = (.hunt, [.received f]) := by
    rw [show s.receiver .site = .hunt from hrx, rxRun_frameLine hf]
  have hself : s.setReceiver .site .hunt = s := by
    rw [← show s.receiver .site = .hunt from hrx, State.setReceiver_self]
  rw [State.receiveLine_one (congrArg Prod.snd hrun), hrun, hself]
  rfl

/-- A state whose site receiver hunts keeps it so. -/
theorem State.hunting_self {s : State} (hrx : s.site.rx = .hunt) :
    ({ s with site := { s.site with rx := .hunt } } : State) = s := by rw [← hrx]

theorem State.sortSite_request {s : State} {f : Frame} (hd : f.dest = s.site.address ∨ f.dest = 0xFF)
    (hk : f.kind = 0x10) : s.sortSite f = s.hearRequest.bufferRequest f := by
  unfold State.sortSite
  rw [if_pos hd, if_pos hk]

theorem State.sortSite_other {s : State} {f : Frame} (hd : f.dest = s.site.address ∨ f.dest = 0xFF)
    (hk : f.kind ≠ 0x10) (hg : f.kind ≠ 0x18 ∨ f.dest ≠ s.site.address) : s.sortSite f = s := by
  unfold State.sortSite
  rw [if_pos hd, if_neg hk, if_neg (fun h => hg.elim (· h.1) (· h.2))]

theorem State.sortSite_foreign {s : State} {f : Frame} (hown : f.dest ≠ s.site.address)
    (hall : f.dest ≠ 0xFF) (haz : f.dest ≠ 0x30) (hel : f.dest ≠ 0x31) (hrot : f.dest ≠ 0x32) :
    s.sortSite f = s := by
  have hproxy : proxyAxis f.dest = none := by
    unfold proxyAxis
    rw [if_neg haz, if_neg hel, if_neg hrot]
  unfold State.sortSite
  rw [if_neg (fun h => h.elim hown hall), hproxy]

/-- Where the buffer has room a request joins it, and else it is dropped with its mark (R172). -/
theorem State.bufferRequest_eq (s : State) (f : Frame) : s.bufferRequest f = { s with
    site.requests := if s.site.requests.length < 4 then
        s.site.requests ++ [{ src := f.src, dest := f.dest, tag := f.tag, payload := f.payload }]
      else s.site.requests
    site.requestDropped := s.site.requestDropped || decide (4 ≤ s.site.requests.length) } := by
  unfold State.bufferRequest
  by_cases hroom : s.site.requests.length < 4
  · rw [if_pos hroom, if_pos hroom, decide_eq_false (Nat.not_le.mpr hroom), Bool.or_false]
  · rw [if_neg hroom, if_neg hroom, decide_eq_true (Nat.le_of_not_lt hroom), Bool.or_true]

/-- Settles O48: the frame reads back from its line, and it is sorted by its destination and kind. -/
theorem requestReceptionBuffers : Obligations.RequestReceptionBuffers := by
  intro s f hrx hf
  have hexec : exec (.requestFrameReception f) s = .next (s.sortSite f) :=
    congrArg Host.Outcome.next (State.receiveLine_siteFrame hrx hf)
  refine ⟨fun hd hk => ?_, fun hown hall haz hel hrot => ?_, fun hd hk hg => ?_⟩
  · rw [hexec, State.sortSite_request hd hk, State.bufferRequest_eq, ← hrx]
    rfl
  · rw [hexec, State.sortSite_foreign hown hall haz hel hrot, State.hunting_self hrx]
  · rw [hexec, State.sortSite_other hd hk hg, State.hunting_self hrx]

/-! ## A pin reset (R72, R154, R155, R158, R170) -/

/-- The state at the end of a pin reset has an empty slot and no alarm, so PERMIT_LOST enters ALARM from it
with nothing to depart. -/
theorem State.raiseAlarm_pinReset (s : State) (straps : BitVec 3) (permit : Bool) :
    (s.pinReset straps permit).raiseAlarm .permitLost none =
      (s.pinReset straps permit).alarmed .permitLost none := by
  rw [State.raiseAlarm_eq (show (s.pinReset straps permit).slotMatches from rfl)]
  exact if_neg (fun h : MotionState.parked = .alarm => by cases h)

/-- Settles O4: the reset state is closed but for the address, the waiting commands and the free index, and
so is the alarm entered from it. -/
theorem pinResetRestoresResetState : Obligations.PinResetRestoresResetState := by
  intro straps s
  let t := (s.pinReset straps false).alarmed .permitLost none
  have hexec : exec (.pinReset straps false) s = .next t :=
    congrArg Host.Outcome.next (s.raiseAlarm_pinReset straps false)
  have ht : t = _ := State.moved_alarm _
  refine ⟨rfl, t, hexec, ?_⟩
  rw [ht]
  exact ⟨rfl, rfl, rfl, rfl, rfl, rfl, fun x => by cases x <;> exact ⟨rfl, rfl⟩, rfl, rfl, rfl⟩

/-! ## Adjust Dwell (R63) -/

section
variable {s : State} {id value : Nat}

theorem adjustDwellBody_refused {p : List Byte} (h : natAt p 0 2 = 0 ∨ 14400000 < natAt p 2 4) :
    adjustDwellBody p s = refuse s .badParam := if_pos (.inr h)

theorem adjustDwellBody_of_valid {p : List Byte} (hl : p.length = 6) (hi : natAt p 0 2 ≠ 0)
    (hv : natAt p 2 4 ≤ 14400000) : adjustDwellBody p s = s.adjustDwell (natAt p 0 2) (natAt p 2 4) :=
  if_neg fun h => h.elim (· hl) (·.elim hi (Nat.not_lt.mpr hv))

theorem State.adjustDwell_active {a : Running} (ha : s.active? id = some a) :
    s.adjustDwell id value = (if value = 0 then s.endActive .completed .none
      else s.mapContext (fun c => { c with dwellRemaining := value * 1000 }), okReply [1]) := by
  simp only [State.adjustDwell, ha]
  rfl

theorem State.adjustDwell_shelved {e : Running} (ha : s.active? id = none) (he : s.shelved? id = some e) :
    s.adjustDwell id value = (if value = 0 then s.departShelved e .completed .none
      else s.setShelvedDwell id value, okReply [2]) := by
  simp only [State.adjustDwell, ha, he]
  rfl

theorem State.adjustDwell_queued {q : TargetRecord} (ha : s.active? id = none) (he : s.shelved? id = none)
    (hq : s.queued? id = some q) : s.adjustDwell id value =
      if value < 1000 then refuse s .badParam else (s.setQueuedDwell id value, okReply [0]) := by
  simp only [State.adjustDwell, ha, he, hq]
  rfl

theorem State.adjustDwell_absent (h : s.present? id = false) :
    s.adjustDwell id value = refuse s .notFound := by
  obtain ⟨hq, ha, he⟩ := State.present?_eq_false h
  simp only [State.adjustDwell, hq, ha, he]

theorem State.mapContext_of_active {a : Running} (ha : s.seq.active = some a) (f : Context → Context) :
    s.mapContext f = { s with seq.active := some { a with ctx := f a.ctx } } := by
  simp only [State.mapContext, State.mapActive, ha, Option.map_some]

/-- A shelved target completed: it leaves the shelf by the departure of R20. -/
theorem State.departShelved_completed {e : Running} (he : e.record.targetId = id) :
    s.departShelved e .completed .none =
      { s with
        seq.shelf := s.seq.shelf.filter (fun q => q.record.targetId != id)
        chains := s.chains.filter (fun c => c.owner != id)
        seq.outcomes := pushOutcome s.seq.outcomes
          { record := e.record, verdict := .completed, reason := .none, axis := none
            time := s.time.mount, place := .shelved }
        rep := offerReport s.rep (.targetOutcome .completed .none none .shelved) s.time.mount id } := by
  subst he
  rfl

end

/-- Settles O26: what Adjust Dwell does is decided by the place where the target_id stands, and by whether
the value is 0. -/
theorem adjustDwellByPlace : Obligations.AdjustDwellByPlace := by
  intro s r rest p h hl id value
  let taken : State := { s with site.requests := rest }
  have hbody (hi : id ≠ 0) (hv : value ≤ 14400000) :
      adjustDwellBody p taken = taken.adjustDwell id value := adjustDwellBody_of_valid hl hi hv
  refine ⟨fun hbad => exec_answers h rfl rfl (adjustDwellBody_refused hbad), fun hi hv => ?_⟩
  replace hbody := hbody hi hv
  refine ⟨fun a ha hid => ?_, fun e ha he => ?_, fun q ha he hq => ?_, fun hp => ?_⟩
  · have hactive := State.adjustDwell_active (s := taken) (value := value) (State.active?_of_active ha hid)
    refine ⟨fun hv0 => ?_, fun hv0 => ⟨taken.endActive .completed .none, ?_, ?_⟩⟩
    · rw [if_neg hv0, State.mapContext_of_active (s := taken) ha] at hactive
      exact exec_answers (u := { s with seq.active := some { a with ctx.dwellRemaining := value * 1000 } })
        h rfl rfl (hbody.trans hactive)
    · rw [if_pos hv0] at hactive
      exact exec_answers_body h rfl rfl (hbody.trans hactive)
        (by rw [(State.endActive_spec taken _ _).1.site])
    · exact State.endActiveFrom_ended (s := taken) ha _ _ _
  · have hshelved := State.adjustDwell_shelved (s := taken) (value := value) ha he
    refine ⟨fun hv0 => ?_, fun hv0 => ?_⟩
    · rw [if_neg hv0] at hshelved
      exact exec_answers (u := s.setShelvedDwell id value) h rfl rfl (hbody.trans hshelved)
    · rw [if_pos hv0] at hshelved
      rw [← State.departShelved_completed (s := s) (State.shelved?_id he)]
      exact exec_answers (u := s.departShelved e .completed .none) h rfl rfl (hbody.trans hshelved)
  · have hqueued := State.adjustDwell_queued (s := taken) (value := value) ha he hq
    refine ⟨fun hv0 => ?_, fun hv0 => ?_⟩
    · rw [if_neg (Nat.not_lt.mpr hv0)] at hqueued
      exact exec_answers (u := s.setQueuedDwell id value) h rfl rfl (hbody.trans hqueued)
    · rw [if_pos hv0] at hqueued
      exact exec_answers h rfl rfl (hbody.trans hqueued)
  · exact exec_answers h rfl rfl (hbody.trans (State.adjustDwell_absent (s := taken) hp))

/-! ## Leaving PARKED and ALARM (R48, R50, R73, R128, R156) -/

/-- A change of motion state touches the motion state, the reports and the term tables only. -/
theorem State.moved_keeps (s : State) (m : MotionState) :
    (s.moved m).seq.queue = s.seq.queue ∧ (s.moved m).seq.active = s.seq.active ∧
      (s.moved m).planner = s.planner ∧ (s.moved m).chains = s.chains := by
  unfold State.moved
  dsimp only
  split <;> exact ⟨rfl, rfl, rfl, rfl⟩

/-- With no commit waiting, a change of motion state is that and its report (R103). -/
theorem State.moved_uncommitted {s : State} (h : s.corr.commitPending = false) (m : MotionState) :
    s.moved m = { s with
      seq.motion := m
      rep := offerReport s.rep (.phaseChange s.seq.motion m) s.time.mount s.activeId } := by
  unfold State.moved
  exact if_neg fun hm => absurd (h.symm.trans hm.2) Bool.false_ne_true

/-- What leaving PARKED or ALARM comes to, with the measured angles as hold position (R50, R73). -/
structure State.LeavesRest (s t : State) (angle : Lane → Int) : Prop where
  motion : t.seq.motion = .idle ∨ t.seq.motion = .slewing
  lanes : ∀ x, t.seq.hold.get x = 256 * angle x ∧
    t.ports.get x = { s.ports.get x with control := some (releaseFrame (s.axis x).node) } ∧
    t.servo.watch.get x = some { restart := s.time.mount, interval := (s.axis x).watch }
  quiet : s.seq.queue = [] ∨ s.seq.mode = .hold →
    t.seq.motion = .idle ∧ t.seq.queue = s.seq.queue ∧ t.seq.active = s.seq.active ∧
      t.planner.current = .none ∧ t.chains = s.chains ∧
      (s.corr.commitPending = false → t.corr = s.corr ∧
        t.rep = offerReport s.rep (.phaseChange s.seq.motion .idle) s.time.mount s.activeId)
  time : t.time = s.time
  cond : t.cond = s.cond
  mode : t.seq.mode = s.seq.mode
  guide : t.guide = s.guide
  latest : t.servo.latest = s.servo.latest
  site : t.site = s.site
  permit : t.permit = s.permit

theorem State.measured_of_latest {s : State} {x : Lane} {l : LatestSample} {angle : Int}
    (hl : s.servo.latest.get x = some l) (hm : l.measured = some angle) : s.measured x = some angle := by
  rw [State.measured, hl]
  exact hm

/-- The motion state with the drives released, the hold position fixed and no plan, before IDLE is entered. -/
def State.released (s : State) : State :=
  { s.releaseAll.startWatches with
    freeIndex := s.freeIndex + 3, seq.hold := s.measuredHold, planner.current := .none }

theorem State.leaveRest_leaves {s : State} {angle : Lane → Int}
    (hm : s.seq.motion = .parked ∨ s.seq.motion = .alarm) (hmeasured : ∀ x, s.measured x = some (angle x)) :
    s.LeavesRest s.leaveRest angle := by
  have hagrees : s.released.Agrees s.leaveRest :=
    (State.enter_agrees _ _).trans (activationTest_spec _ _ _ _).1
  have hmode : s.leaveRest.seq.mode = s.seq.mode :=
    (activationTest_proceeds _ _ _ _).mode.trans (State.enter_lists s.released .idle).2.2.2.2.1
  have henter : s.released.enter .idle = s.released.moved .idle := by
    refine State.enter_moved (by decide) (fun hd => ?_) (fun hd => ?_)
    all_goals
      replace hd : s.seq.motion = _ := hd
      rw [hd] at hm
      exact absurd hm (by decide)
  refine ⟨?_, fun x => ⟨?_, ?_, ?_⟩, fun hquiet => ?_, hagrees.time, hagrees.cond, hmode, hagrees.guide,
    hagrees.latest, hagrees.site, hagrees.permit⟩
  · rcases State.enterIdle_spec { s.releaseAll.startWatches with freeIndex := s.freeIndex + 3 }
      s.measuredHold with ⟨hslews, -⟩ | ⟨hidle, -⟩
    · exact .inr hslews
    · exact .inl hidle
  · have hhold : s.measuredHold.get x = 256 * angle x := by
      rw [State.measuredHold, Lanes.get_of, hmeasured x]
      rfl
    rw [hagrees.hold]
    exact hhold
  · rw [hagrees.ports]
    exact Lanes.get_of _ _
  · rw [hagrees.watch]
    exact Lanes.get_of _ _
  · have hleft : s.leaveRest = s.released.moved .idle :=
      (State.enterIdle_silent
        (s := { s.releaseAll.startWatches with freeIndex := s.freeIndex + 3 }) hquiet _).trans henter
    obtain ⟨hqueue, hactive, hplanner, hchains⟩ := s.released.moved_keeps .idle
    rw [hleft, hplanner, hchains]
    refine ⟨State.moved_motion _ _, hqueue, hactive, rfl, rfl, fun hcommit => ?_⟩
    rw [State.moved_uncommitted (s := s.released) hcommit]
    exact ⟨rfl, rfl⟩

/-! ### Unpark (R50) -/

theorem unparkBody_wrongState {s : State} (h : s.seq.motion ≠ .parked) :
    unparkBody [] s = refuse s .wrongState := by
  unfold unparkBody
  rw [if_neg (not_not.mpr rfl), if_pos h]

theorem unparkBody_ready {s : State} (hm : s.seq.motion = .parked) (h : s.unparkRefusal = none) :
    unparkBody [] s = (s.leaveRest, okReply []) := by
  unfold unparkBody
  rw [if_neg (not_not.mpr rfl), if_neg (not_not.mpr hm), h]
  rfl

theorem State.unparkRefusal_none {s : State} (haxes : s.planner.axes ≠ none)
    (hlimits : s.planner.limits ≠ none) (hvalid : s.time.valid = true)
    (hlately : ∀ x, s.sampledLately x = true) : s.unparkRefusal = none := by
  have hfirst : firstAxis s.sampledLately = none :=
    List.find?_eq_none.mpr fun x _ => by rw [hlately x]; exact Bool.false_ne_true
  unfold State.unparkRefusal
  rw [if_neg (mt Option.isNone_iff_eq_none.mp haxes), if_neg (mt Option.isNone_iff_eq_none.mp hlimits),
    if_neg (by rw [hvalid]; decide), hfirst]
  rfl

theorem State.sampledLately_of_latest {s : State} {x : Lane} {l : LatestSample}
    (hl : s.servo.latest.get x = some l) (ha : l.arrival ≤ s.time.mount)
    (hw : s.time.mount - l.arrival ≤ (s.axis x).watch) : s.sampledLately x = true := by
  simp only [State.sampledLately, hl, decide_eq_true ha, decide_eq_true hw, Bool.and_self]

/-- Settles O29: the four checks of Unpark, and what leaving rest comes to. -/
theorem unparkEntersIdle : Obligations.UnparkEntersIdle := by
  intro s r rest h
  let taken : State := { s with site.requests := rest }
  refine ⟨fun hm => exec_answers h rfl rfl (unparkBody_wrongState (s := taken) hm),
    fun angle hm haxes hlimits hvalid hlatest => ?_⟩
  have hready : taken.unparkRefusal = none :=
    State.unparkRefusal_none (s := taken) haxes hlimits hvalid fun x => by
      obtain ⟨l, hl, ha, hw, -⟩ := hlatest x
      exact State.sampledLately_of_latest (s := taken) hl ha hw
  have hleaves : taken.LeavesRest taken.leaveRest angle :=
    State.leaveRest_leaves (.inl hm) fun x => by
      obtain ⟨l, hl, -, -, hmeasured⟩ := hlatest x
      exact State.measured_of_latest (s := taken) hl hmeasured
  refine ⟨taken.leaveRest, ?_, hleaves.site, hleaves.motion, hleaves.lanes, fun hquiet => ?_, hleaves.time,
    hleaves.cond, hleaves.mode, hleaves.guide, hleaves.latest⟩
  · exact exec_answers_body h rfl rfl (unparkBody_ready (s := taken) hm hready) (by rw [hleaves.site])
  · have hrest := hleaves.quiet hquiet
    rw [show taken.seq.motion = _ from hm] at hrest
    exact hrest

/-! ### Clear Alarm (R73, R156) -/

/-- An axis's latest-sample record fails a requirement of Clear Alarm and none before it: 4 NO_SAMPLE,
5 DRIVE_FAULT, 6 LIMIT_SWITCH, 7 HARD_LIMIT (R156, log 35). -/
def State.failsClear (s : State) (x : Lane) (n : Byte) : Prop :=
  (n = 4 ∧ ∀ l, s.servo.latest.get x = some l → l.seenSinceAlarm = false) ∨
    ∃ l, s.servo.latest.get x = some l ∧ l.seenSinceAlarm = true ∧
      ((n = 5 ∧ l.fault = true) ∨ (n = 6 ∧ l.fault = false ∧ l.limitSwitch = true) ∨
        (n = 7 ∧ l.fault = false ∧ l.limitSwitch = false ∧
          ∀ m limits, l.measured = some m → s.planner.limits = some limits →
            m < (limits.get x).hardMin ∨ (limits.get x).hardMax < m))

/-- The angle of a latest sample is known and within the hard limits (R156). -/
theorem State.outsideHard_iff {s : State} {x : Lane} {limits : Lanes AxisLimits}
    (hlimits : s.planner.limits = some limits) (o : Option Int) :
    (∀ m ls, o = some m → s.planner.limits = some ls →
      m < (Lanes.get ls x).hardMin ∨ (Lanes.get ls x).hardMax < m) ↔
      ¬ ∃ m, o = some m ∧ (s.limit x).hardMin ≤ m ∧ m ≤ (s.limit x).hardMax := by
  have hlimit : s.limit x = limits.get x := by simp only [State.limit, hlimits]
  rw [hlimit]
  constructor
  · rintro h ⟨m, hm, hmin, hmax⟩
    rcases h m limits hm hlimits with h | h <;> omega
  · intro h m ls hm hls
    cases hlimits.symm.trans hls
    by_contra hin
    exact h ⟨m, hm, by omega, by omega⟩

theorem State.axisRequirement_iff {s : State} {limits : Lanes AxisLimits}
    (hlimits : s.planner.limits = some limits) (x : Lane) (n : Byte) :
    s.axisRequirement x = some n ↔ s.failsClear x n := by
  rw [@eq_comm _ _ (some n)]
  unfold State.axisRequirement State.failsClear
  cases hl : s.servo.latest.get x with
  | none => simp 
  | some l =>
    have hout := State.outsideHard_iff hlimits (x := x) l.measured
    by_cases hseen : l.seenSinceAlarm = false
    · simp [hseen]
    by_cases hfault : l.fault = true
    · simp [hseen, hfault]
    by_cases hswitch : l.limitSwitch = true
    · simp [hseen, hfault, hswitch]
    simp only [Option.some.injEq, forall_eq', exists_eq_left', hseen, hfault, hswitch, hout]
    cases hm : l.measured with
    | none => simp 
    | some m =>
      by_cases hin : (s.limit x).hardMin ≤ m ∧ m ≤ (s.limit x).hardMax <;> simp [hin]

theorem axisByte_eq (x : Lane) : [axisByte (some x)] = natBytes 1 (laneCode x) := by
  cases x <;> rfl

/-- The first axis in the order AZ, EL, ROT that fails something, with what it fails. -/
theorem findSome?_allLanes {f : Lane → Option Byte} {x : Lane} {n : Byte} (hx : f x = some n)
    (hbefore : ∀ y, laneCode y < laneCode x → f y = none) :
    allLanes.findSome? (fun y => (f y).map (fun k => [k, axisByte (some y)])) =
      some (n :: natBytes 1 (laneCode x)) := by
  rw [← axisByte_eq]
  cases x
  case az => simp [allLanes, hx]
  case el =>
    have haz := hbefore .az (by decide)
    simp [allLanes, hx, haz]
  case rot =>
    have haz := hbefore .az (by decide)
    have hel := hbefore .el (by decide)
    simp [allLanes, hx, haz, hel]

section
variable {s : State}

theorem clearAlarmBody_wrongState (h : s.seq.motion ≠ .alarm) :
    clearAlarmBody [] s = refuse s .wrongState := by
  unfold clearAlarmBody
  rw [if_neg (not_not.mpr rfl), if_pos h]

theorem clearAlarmBody_refused (hm : s.seq.motion = .alarm) {result : List Byte}
    (h : s.clearRefusal = some result) : clearAlarmBody [] s = refuseWith s .notReady result := by
  unfold clearAlarmBody
  rw [if_neg (not_not.mpr rfl), if_neg (not_not.mpr hm), h]

/-- A state with its alarm record emptied (R73). -/
def State.unalarmed (s : State) : State := { s with cond.first := none, cond.causeSet := [] }

theorem clearAlarmBody_ready (hm : s.seq.motion = .alarm) (h : s.clearRefusal = none) :
    clearAlarmBody [] s = (s.unalarmed.leaveRest, okReply []) := by
  unfold clearAlarmBody
  rw [if_neg (not_not.mpr rfl), if_neg (not_not.mpr hm), h]
  rfl

theorem State.clearRefusal_permit (h : s.permit = false) : s.clearRefusal = some [1] := if_pos h

theorem State.clearRefusal_axes (hp : s.permit = true) (h : s.planner.axes = none) :
    s.clearRefusal = some [2] := by
  unfold State.clearRefusal
  rw [if_neg (by rw [hp]; decide), if_pos (by rw [h]; rfl)]

theorem State.clearRefusal_limits (hp : s.permit = true) (ha : s.planner.axes ≠ none)
    (h : s.planner.limits = none) : s.clearRefusal = some [3] := by
  unfold State.clearRefusal
  rw [if_neg (by rw [hp]; decide), if_neg (mt Option.isNone_iff_eq_none.mp ha), if_pos (by rw [h]; rfl)]

theorem State.clearRefusal_loaded (hp : s.permit = true) (ha : s.planner.axes ≠ none)
    (hl : s.planner.limits ≠ none) : s.clearRefusal =
      allLanes.findSome? (fun x => (s.axisRequirement x).map (fun n => [n, axisByte (some x)])) := by
  unfold State.clearRefusal
  rw [if_neg (by rw [hp]; decide), if_neg (mt Option.isNone_iff_eq_none.mp ha),
    if_neg (mt Option.isNone_iff_eq_none.mp hl)]

end

/-- Settles O30: the requirements are looked at in their order, and with all of them met rest is left with
the alarm record emptied. -/
theorem clearAlarmEntersIdle : Obligations.ClearAlarmEntersIdle := by
  intro s r rest h
  let taken : State := { s with site.requests := rest }
  have hrefused : ∀ result, s.seq.motion = .alarm → taken.clearRefusal = some result →
      exec .clearAlarm s = .next (s.answered r rest 0x1B { status := .notReady, result }) :=
    fun result hm hr => exec_answers h rfl rfl (clearAlarmBody_refused (s := taken) hm hr)
  refine ⟨fun hm => exec_answers h rfl rfl (clearAlarmBody_wrongState (s := taken) hm),
    fun hm hp => hrefused _ hm (State.clearRefusal_permit hp),
    fun hm hp ha => hrefused _ hm (State.clearRefusal_axes hp ha),
    fun hm hp ha hl => hrefused _ hm (State.clearRefusal_limits hp ha hl),
    fun hm hp ha hl x n hfails hbefore => hrefused _ hm ?_,
    fun angle limits hm hp ha hl hgood => ?_⟩
  · obtain ⟨limits, hlimits⟩ := Option.ne_none_iff_exists'.mp hl
    have hrequired := State.axisRequirement_iff (s := taken) hlimits
    rw [State.clearRefusal_loaded (s := taken) hp ha hl]
    refine findSome?_allLanes ((hrequired x n).mpr hfails) fun y hy => ?_
    exact Option.eq_none_iff_forall_not_mem.mpr fun m hm => hbefore y m hy ((hrequired y m).mp hm)
  · have hmet : ∀ x, taken.axisRequirement x = none := fun x => by
      obtain ⟨hmin, hmax, l, hlatest, hseen, hfault, hswitch, hmeasured⟩ := hgood x
      have hlimit : taken.limit x = limits.get x := by simp only [State.limit, taken, hl]
      simp [State.axisRequirement, taken, hlatest, hseen, hfault, hswitch, hmeasured, hlimit, hmin, hmax]
    have hready : taken.clearRefusal = none := by
      rw [State.clearRefusal_loaded (s := taken) hp ha (by rw [show taken.planner.limits = _ from hl]; nofun)]
      simp [hmet]
    have hleaves : taken.unalarmed.LeavesRest taken.unalarmed.leaveRest angle :=
      State.leaveRest_leaves (.inr hm) fun x => by
        obtain ⟨-, -, l, hlatest, -, -, -, hmeasured⟩ := hgood x
        exact State.measured_of_latest (s := taken.unalarmed) hlatest hmeasured
    refine ⟨taken.unalarmed.leaveRest, ?_, hleaves.site, hleaves.motion, hleaves.cond, hleaves.lanes,
      fun hquiet => ?_, hleaves.time, hleaves.mode, hleaves.latest, hleaves.permit, hleaves.guide⟩
    · exact exec_answers_body h rfl rfl (clearAlarmBody_ready (s := taken) hm hready)
        (by rw [hleaves.site]; rfl)
    · have hrest := hleaves.quiet hquiet
      rw [show taken.unalarmed.seq.motion = _ from hm] at hrest
      exact hrest

/-! ## The activation test of one head, by what its wrap choice is (R51 to R54, R164) -/

theorem startReached_of {q : TargetRecord} {now : Nat}
    (h : ∀ start, q.earliestStart = some start → start ≤ now) : startReached q now = true := by
  unfold startReached
  split
  · rfl
  · rename_i start hs
    exact decide_eq_true (h start hs)

theorem startReached_before {q : TargetRecord} {now start : Nat} (hs : q.earliestStart = some start)
    (h : now < start) : startReached q now = false := by
  simp only [startReached, hs]
  exact decide_eq_false (Nat.not_le.mpr h)

/-- The lanes that a starvation report names: the needed ones whose chains pass (R53). -/
theorem TargetRecord.lanesWhere_any (r : TargetRecord) (cs : List Chain) (f : Chain → Bool) :
    r.lanesWhere (fun x => ((findChain cs r.targetId x).map f).getD false) =
      .of (fun x => decide (x ∈ r.neededLanes) && (findChain cs r.targetId x).any f) := by
  unfold TargetRecord.lanesWhere
  congr 1
  funext x
  dsimp only
  cases findChain cs r.targetId x <;> rfl

theorem TargetRecord.lanesWhere_covers (r : TargetRecord) (cs : List Chain) (a b : Nat) :
    r.lanesWhere (fun x => laneCovers cs r.targetId x a b) =
      .of (fun x => decide (x ∈ r.neededLanes) && (findChain cs r.targetId x).any (·.coversSpan a b)) := by
  unfold TargetRecord.lanesWhere laneCovers
  congr 1
  funext x
  dsimp only
  cases findChain cs r.targetId x <;> rfl

section
variable {s : State} {q : TargetRecord} {qs : List TargetRecord}

/-- A target into the slot in IDLE, where nothing is measured (R54). -/
theorem State.takeSlot_of_idle (h : s.seq.motion = .idle) (a : Running) (p : SlewPlan) :
    s.takeSlot a p = s.slotted a.record a.ctx p := by
  unfold State.takeSlot State.slotted
  exact State.enter_moved (by decide) (fun hd => by cases h.symm.trans hd) (fun hd => by cases h.symm.trans hd)

theorem State.testActivation_cons (hq : s.seq.queue = q :: qs) :
    s.testActivation = activationTest false s.holdMotion (qs.length + 1) s := by
  unfold State.testActivation
  rw [hq]
  rfl

/-- The head's chains retired to now, which is how the activation test looks at them (R40, R52). -/
def State.tested (s : State) (q : TargetRecord) : State :=
  { s with chains := retireTarget s.chains q.targetId s.time.mount }

section
variable {inRule : Bool} {o : Lanes Motion} (n : Nat)

theorem activationTest_uncovered {p : SlewPlan} (hq : s.seq.queue = q :: qs)
    (hmay : s.mayActivate inRule q = true)
    (hplan : (s.tested q).chooseWrapFor o q (.fresh q.dwell s.time.mount 0) = .plan p)
    (hcover : targetCovers (s.tested q).chains q p.arrival (p.arrival + s.cover) = false) :
    activationTest inRule o (n + 1) s = (s.tested q).starve q (p.arrival + s.cover)
      (.of (fun x => decide (x ∈ q.neededLanes) &&
        (findChain (s.tested q).chains q.targetId x).any (·.coversSpan p.arrival (p.arrival + s.cover)))) := by
  unfold State.tested at hplan
  unfold activationTest
  rw [hq]
  dsimp only
  rw [if_pos hmay, hplan, ← TargetRecord.lanesWhere_covers]
  exact if_neg (Bool.eq_false_iff.mp hcover)

theorem activationTest_noCover {point : Nat} (hq : s.seq.queue = q :: qs)
    (hmay : s.mayActivate inRule q = true)
    (hplan : (s.tested q).chooseWrapFor o q (.fresh q.dwell s.time.mount 0) = .noCover point) :
    activationTest inRule o (n + 1) s = (s.tested q).starve q point
      (.of (fun x => decide (x ∈ q.neededLanes) &&
        (findChain (s.tested q).chains q.targetId x).any (·.covers point))) := by
  unfold State.tested at hplan
  unfold activationTest
  rw [hq]
  dsimp only
  rw [if_pos hmay, hplan, ← TargetRecord.lanesWhere_any]
  rfl

theorem activationTest_noTrajectory (hq : s.seq.queue = q :: qs) (hmay : s.mayActivate inRule q = true)
    (hplan : (s.tested q).chooseWrapFor o q (.fresh q.dwell s.time.mount 0) = .noTrajectory) :
    activationTest inRule o (n + 1) s =
      activationTest inRule o n ((s.tested q).departQueued q .abandoned .noTrajectory) := by
  unfold State.tested at hplan
  conv_lhs => unfold activationTest
  rw [hq]
  dsimp only
  rw [if_pos hmay, hplan]
  rfl

end

/-- With each target_id standing once, taking the head out leaves the records behind it (R6). -/
theorem State.withoutRecords_head (hids : s.idsUnique) (hq : s.seq.queue = q :: qs) :
    withoutRecords s.seq.queue [q] = qs := by
  have hnodup : (s.seq.queue.map (·.targetId)).Nodup := by
    have hall := hids
    rw [State.idsUnique, ← State.ids, State.ids_eq] at hall
    exact (List.nodup_append.mp hall).1
  rw [hq, List.map_cons, List.nodup_cons] at hnodup
  rw [hq, withoutRecords, List.filter_cons_of_neg (by simp)]
  refine List.filter_eq_self.mpr fun b hb => decide_eq_true fun hid => hnodup.1 ?_
  have hid' : b.targetId = q.targetId := List.mem_singleton.mp hid
  exact hid' ▸ List.mem_map_of_mem hb

theorem exec_startTimeReached (s : State) :
    (s.seq.startHanded = false → exec .startTimeReached s = .next s) ∧
      (s.seq.startHanded = true → exec .startTimeReached s =
        .next (State.testActivation { s with seq.startHanded := false })) :=
  ⟨fun h => congrArg Host.Outcome.next (if_neg (Bool.eq_false_iff.mp h)),
    fun h => congrArg Host.Outcome.next (if_pos h)⟩

end

/-- Settles O59: the test runs once for the event, and its one head goes by its wrap choice. -/
theorem activationTestAtStartTime : Obligations.ActivationTestAtStartTime := by
  intro s
  obtain ⟨hnot, hruns⟩ := exec_startTimeReached s
  refine ⟨hnot, fun hs => ?_⟩
  replace hruns := hruns hs
  intro u
  refine ⟨fun hsilent => ?_, fun q qs hq hstart hvalid hm hmode => ?_⟩
  · refine hruns.trans (congrArg Host.Outcome.next ?_)
    rcases hsilent with hm | hmode | hvalid | hq | ⟨q, qs, start, hq, hstart, hlate⟩
    · exact State.testActivation_silent (s := u) (.inl hm)
    · exact State.testActivation_silent (s := u) (.inr hmode)
    · exact activationTest_noHead (s := u) (.inr (.inr (.inl hvalid))) _ _ _
    · exact activationTest_noHead (s := u) (.inl hq) _ _ _
    · exact activationTest_noHead (s := u)
        (.inr (.inr (.inr ⟨q, qs, hq, startReached_before hstart hlate⟩))) _ _ _
  · have hmay : u.mayActivate false q = true := by
      simp [State.mayActivate, u, hm, hmode, hvalid, startReached_of hstart]
    replace hruns : exec .startTimeReached s =
        .next (activationTest false s.holdMotion (qs.length + 1) u) :=
      hruns.trans (congrArg Host.Outcome.next (State.testActivation_cons (s := u) hq))
    intro tested choice until_ lanes wanting
    refine ⟨fun plan hplan => ⟨fun hcover => ?_, fun hcover => ?_⟩, fun point hplan => ?_,
      fun hplan hids => ?_⟩
    · rw [activationTest_takes (s := u) qs.length hq hmay hplan hcover, State.setQueue_eq] at hruns
      exact hruns.trans (congrArg Host.Outcome.next (State.takeSlot_of_idle (s := tested.queued qs) hm _ _))
    · exact hruns.trans (congrArg Host.Outcome.next
        (activationTest_uncovered (s := u) qs.length hq hmay hplan hcover))
    · exact hruns.trans (congrArg Host.Outcome.next
        (activationTest_noCover (s := u) qs.length hq hmay hplan))
    · intro left
      have hleft : tested.departQueued q .abandoned .noTrajectory = left := by
        rw [State.departQueued_eq, State.withoutRecords_head (s := tested) hids hq]
      rw [activationTest_noTrajectory (s := u) qs.length hq hmay hplan] at hruns
      have htest : exec .startTimeReached s = .next left.testActivation :=
        hruns.trans (congrArg Host.Outcome.next
          (congrArg (activationTest false s.holdMotion qs.length) hleft))
      exact ⟨htest, fun hqs => htest.trans
        (congrArg Host.Outcome.next (activationTest_noHead (s := left) (.inl hqs) _ _ _))⟩

/-! ## Push Offset (R57, R105 to R107, R111) -/

/-- The values that the parameters of an offset request give the lanes of its set, in the statements' terms
(R106). -/
theorem mergeLanes_eq (p : List Byte) (kept : Lanes Int) :
    mergeLanes (laneSetOf (natAt p 0 1)) (lanesAt p 1) kept = .of (fun x =>
      if (natAt p 0 1).testBit (laneCode x) then intAt p (1 + 4 * laneCode x) 4 else kept.get x) := by
  unfold mergeLanes
  congr 1
  funext x
  cases x <;> rfl

section
variable {st : OffsetStack} {v : Lanes Int}

/-- A push onto a stack with a free entry, entry by entry (R107). -/
theorem OffsetStack.push_eq (h : st.top < st.entries.length) (v : Lanes Int) : st.push v =
    { entries := st.entries.take st.top ++ [v] ++ st.entries.drop (st.top + 1), top := st.top + 1 } := by
  unfold OffsetStack.push
  rw [List.set_eq_take_append_cons_drop, if_pos h, List.append_assoc]
  rfl

/-- The pushed entry adds its values to the effective offset (R105, R107). -/
theorem OffsetStack.effective_push (h : st.top < st.entries.length) (v : Lanes Int) (x : Lane) :
    (st.push v).effective x = st.effective x + v.get x := by
  have hlen : (st.entries.take st.top).length = st.top := List.length_take_of_le h.le
  have htake : (st.push v).entries.take (st.push v).top = st.entries.take st.top ++ [v] := by
    rw [OffsetStack.push_eq h]
    exact List.take_left' (by rw [List.length_append, hlen]; rfl)
  simp [OffsetStack.effective, htake]

theorem OffsetStack.inRange_iff : st.inRange = true ↔ ∀ x, (st.effective x).natAbs ≤ 3600000 := by
  unfold OffsetStack.inRange
  rw [allLanes_iff]
  exact forall_congr' fun x => decide_eq_true_iff

end

section
variable {s : State} {a : Running} {st : OffsetStack}

theorem State.enter_settling_of_tracking (ha : s.seq.active = some a) (hm : s.seq.motion = .tracking) :
    s.enter .settling = { s with
      seq.motion := .settling
      servo.settle := some { beginTime := s.time.mount, seen := .const false }
      rep := offerReport s.rep (.phaseChange .tracking .settling) s.time.mount a.record.targetId } := by
  have hid : s.activeId = a.record.targetId := by simp only [State.activeId, ha]
  rw [← hid]
  simp only [State.enter, State.leaveMotion, hm]
  rfl

/-- The model's replacement of the active stack is `State.stackTo` (R57, R111, R124). -/
theorem State.setStack_eq (ha : s.seq.active = some a) (st : OffsetStack) :
    s.setStack a.ctx.stack st = s.stackTo a st := by
  let t : State := { s with seq.active := some { a with ctx.stack := st } }
  have ht : s.mapContext (fun c => { c with stack := st }) = t := State.mapContext_of_active ha _
  unfold State.setStack State.stackTo
  rw [ht]
  by_cases he : st.effectiveAll = a.ctx.stack.effectiveAll
  · simp [he, t]
  · have hchanged : decide (st.effectiveAll ≠ a.ctx.stack.effectiveAll) = true := decide_eq_true he
    dsimp only
    rw [if_neg he, hchanged]
    by_cases htracking : s.seq.motion = .tracking
    · have hleft : t.offsetChanged = t.enter .settling := by
        simp only [State.offsetChanged, show t.seq.motion = _ from htracking]
      rw [hleft, State.enter_settling_of_tracking (s := t) rfl htracking]
      simp [htracking, t]
    · by_cases hsettling : s.seq.motion = .settling
      · simp [State.offsetChanged, hsettling, t]
      · have hstays : t.offsetChanged = t := by
          unfold State.offsetChanged
          split
          · rename_i hm
            exact absurd hm htracking
          · rename_i hm
            exact absurd hm hsettling
          all_goals rfl
        rw [hstays]
        simp [htracking, hsettling, t]

theorem pushOffsetBody_of_room {p : List Byte} {v : Lanes Int} (hl : p.length = 13) (hlow : 1 ≤ natAt p 0 1)
    (hhigh : natAt p 0 1 ≤ 7) (ha : s.seq.active = some a) (hroom : a.ctx.stack.top < 8)
    (hv : mergeLanes (laneSetOf (natAt p 0 1)) (lanesAt p 1) (.const 0) = v) :
    pushOffsetBody p s =
      if (a.ctx.stack.push v).inRange then
        (s.stackTo a (a.ctx.stack.push v), okReply (natBytes 1 (a.ctx.stack.push v).top ++
          lanesBytes (a.ctx.stack.push v).effectiveAll))
      else refuse s .offsetRange := by
  have hform : ¬ offsetForm p = false := by simp [offsetForm, hl, hlow, hhigh]
  have hfree : ¬ Config.stackSize ≤ a.ctx.stack.top := Nat.not_le.mpr hroom
  unfold pushOffsetBody
  rw [if_neg hform, ha]
  dsimp only
  rw [if_neg hfree, hv, State.setStack_eq ha]
  rfl

end

/-- Settles O33: a push onto a free entry, with the effective offset that it comes to. -/
theorem pushOffsetFillsNextEntry : Obligations.PushOffsetFillsNextEntry := by
  intro s r rest p a h hl hlow hhigh ha hroom hentries value entries stack
  have hfree : a.ctx.stack.top < a.ctx.stack.entries.length := hentries ▸ hroom
  have hpush : a.ctx.stack.push (.of value) = stack := OffsetStack.push_eq hfree _
  have hvalue : mergeLanes (laneSetOf (natAt p 0 1)) (lanesAt p 1) (.const 0) = .of value := by
    rw [mergeLanes_eq]
    congr 1
    funext x
    rw [Lanes.get_const]
  have hbody := pushOffsetBody_of_room (s := { s with site.requests := rest }) hl hlow hhigh ha hroom hvalue
  rw [hpush] at hbody
  refine ⟨fun x => ?_, fun hin => ?_, fun ⟨x, hx⟩ => ?_⟩
  · rw [← hpush, OffsetStack.effective_push hfree, Lanes.get_of]
  · rw [if_pos (OffsetStack.inRange_iff.mpr hin)] at hbody
    exact exec_answers (u := s.stackTo a stack) h rfl rfl hbody
  · rw [if_neg fun hin => absurd (OffsetStack.inRange_iff.mp hin x) (Nat.not_le.mpr hx)] at hbody
    exact exec_answers h rfl rfl hbody

/-! ## Broadcast and waiting requests (R69, R70, R173, R174) -/

/-- A payload names a request command or none (R180). -/
theorem requestOf_names (p : List Byte) :
    (requestCode (requestOf p)).isSome = true ∨ requestOf p = .unknownRequest := by
  unfold requestOf
  split
  · exact .inr rfl
  · split
    case h_46 => exact .inr rfl
    all_goals exact .inl rfl

/-- A request command is the Request Processor taking it, whatever its body does. -/
theorem exec_request {c : Instr} (h : (requestCode c).isSome = true ∨ c = .unknownRequest) :
    ∃ body, ∀ s, exec c s = .next (takeRequest c body s) := by
  cases c
  case requestFrameReception | guideFrame | sample | proxyServiceFrame | serviceReply | linkError |
      siteTransmitStart | axisTransmitStart | pinReset | permitLost | pulseEdge | shutterEdge |
      encoderSilent | supervisionLapse | graceExpiry | guideWatchExpiry | guideLost | dwellCompletion |
      slewCompletion | stopCompletion | windowExpiry | startTimeReached | permitRise |
      frameTransmissionEnd | waitIdleReturnToHunt =>
    exact h.elim nofun nofun
  all_goals exact ⟨_, fun _ => rfl⟩

theorem actsBroadcast_eq_false {c : Instr} (h : c ∉ [.stop, .park, .holdQueue, .setTimeAtPulse]) :
    actsBroadcast c = false := by
  unfold actsBroadcast
  split
  case h_5 => rfl
  all_goals exact absurd h (by simp)

theorem natAt_whole {p : List Byte} {w : Nat} (h : p.length = w) : natAt p 0 w = beNat p := by
  subst h
  rw [natAt, fieldAt, List.drop_zero, List.take_length]

section
variable {s : State} {r : Request} {rest : List Request}

theorem exec_holdQueue_broadcast (hr : s.site.requests = r :: rest) (hd : r.dest = 0xFF)
    (hp : r.payload = [0x06]) :
    exec .holdQueue s = .next { s with site.requests := rest, seq.mode := .hold } := by
  have htaken := takeRequest_broadcast (body := holdQueueBody) (cmd := .holdQueue) hr hd (by rw [hp]; rfl) rfl
  rw [hp] at htaken
  exact congrArg Host.Outcome.next htaken

theorem exec_setTimeAtPulse_broadcast {p : List Byte} (hr : s.site.requests = r :: rest) (hd : r.dest = 0xFF)
    (hp : r.payload = 0x49 :: p) (hl : p.length = 8) :
    exec .setTimeAtPulse s = .next { s with site.requests := rest, time.load := some (beNat p) } := by
  have htaken := takeRequest_broadcast (body := setTimeAtPulseBody) (cmd := .setTimeAtPulse) hr hd
    (by rw [hp]; rfl) rfl
  rw [hp, List.tail_cons, setTimeAtPulseBody, if_neg (not_not.mpr hl), natAt_whole hl] at htaken
  exact congrArg Host.Outcome.next htaken

/-- A broadcast Park acts as the addressed one, without an answer (R70, R174). -/
theorem exec_park_broadcast (hr : s.site.requests = r :: rest) (hd : r.dest = 0xFF)
    (hp : r.payload = [0x19]) : exec .park s = .next (parkBody [] (s.taken rest)).1 := by
  have htaken := takeRequest_broadcast (body := parkBody) (cmd := .park) hr hd (by rw [hp]; rfl) rfl
  rw [hp] at htaken
  exact congrArg Host.Outcome.next htaken

/-- A broadcast Stop acts as the addressed one, without an answer (R69, R174). -/
theorem exec_stop_broadcast (hr : s.site.requests = r :: rest) (hd : r.dest = 0xFF)
    (hp : r.payload = [0x1A]) : exec .stop s = .next (stopBody [] (s.taken rest)).1 := by
  have htaken := takeRequest_broadcast (body := stopBody) (cmd := .stop) hr hd (by rw [hp]; rfl) rfl
  rw [hp] at htaken
  exact congrArg Host.Outcome.next htaken

theorem State.parkNow_taken_of_idle (hm : s.seq.motion = .idle) :
    (s.taken rest).parkNow = ((s.parkStarted s.holdMotion).moved .parking).taken rest := by
  rw [State.parkNow_of_idle (s := s.taken rest) hm, State.parkStarted_taken]
  exact State.moved_requests (s.parkStarted s.holdMotion) _ rest

/-- An addressed request for which the response queue has no room is not due (R173). -/
theorem State.requestDue_full (hr : s.site.requests = r :: rest) (hd : r.dest ≠ 0xFF)
    (hl : Config.responseSize ≤ s.site.responses.length) : s.requestDue = none := by
  have ht : s.canTake r = false := by
    simp only [State.canTake, decide_eq_false hd, decide_eq_false (Nat.not_lt.mpr hl), Bool.or_self]
  unfold State.requestDue
  rw [hr]
  exact if_neg (Bool.eq_false_iff.mp ht)

/-- What a broadcast Stop or Park does in each row of its rule's table. -/
theorem exec_stopOrPark_broadcast (hr : s.site.requests = r :: rest) (hd : r.dest = 0xFF) (park : Bool)
    (hp : r.payload = [if park then 0x19 else 0x1A]) (hm : s.seq.motion ≠ .alarm)
    (hrest : park = false → s.seq.motion ≠ .parked) :
    exec (if park then .park else .stop) s =
      .next (if park then (s.taken rest).parkNow else (s.taken rest).stopNow) := by
  cases park with
  | true => exact (exec_park_broadcast hr hd hp).trans (by
      rw [parkBody_of_ne_alarm (s := s.taken rest) hm]
      rfl)
  | false =>
    exact (exec_stop_broadcast hr hd hp).trans (by
      rw [stopBody_of_ne_rest (s := s.taken rest) (hrest rfl) hm]
      rfl)

theorem State.ne_rest_of_running (h : s.seq.motion.running = true) :
    s.seq.motion ≠ .parked ∧ s.seq.motion ≠ .alarm :=
  ⟨fun k => (nomatch h.symm.trans (congrArg MotionState.running k)),
    fun k => (nomatch h.symm.trans (congrArg MotionState.running k))⟩

end

/-- Settles O16: the Request Processor's four ways with the head of the buffer, and the branches of Stop and
Park. -/
theorem broadcastAndWaitingRequests : Obligations.BroadcastAndWaitingRequests := by
  refine ⟨fun s r rest hr hd => ?_, fun s r rest hr => ⟨fun hd hl => ?_, fun c hc hother => ?_⟩⟩
  · have hne : ∀ {m n : MotionState}, s.seq.motion = m → m ≠ n → s.seq.motion ≠ n := fun h k => h ▸ k
    refine ⟨fun hacts => ?_, exec_holdQueue_broadcast hr hd,
      fun p hp hl => exec_setTimeAtPulse_broadcast hr hd hp hl, fun hp hm => ?_, fun hp hm => ?_,
      fun park hp => ?_⟩
    · obtain ⟨body, hexec⟩ := exec_request (requestOf_names r.payload)
      rw [hexec, takeRequest_discards hr hd rfl (actsBroadcast_eq_false hacts)]
    · refine (exec_stopOrPark_broadcast hr hd false hp (hne hm (by decide))
        (fun _ => hne hm (by decide))).trans (congrArg Host.Outcome.next ?_)
      exact State.stopNow_of_rest (s := s.taken rest) (.inl hm)
    · refine ⟨_, exec_stopOrPark_broadcast hr hd true hp (hne hm (by decide)) nofun, ?_⟩
      rw [if_pos rfl, State.parkNow_taken_of_idle hm, State.moved_quiet _ (by decide)]
      exact ⟨rfl, rfl, rfl⟩
    · have hexec := exec_stopOrPark_broadcast hr hd park hp
      refine ⟨fun a ha hm => ?_, ?_, fun hm => ?_, ?_, fun hm => ?_⟩
      · obtain ⟨hparked, halarm⟩ := State.ne_rest_of_running hm
        refine (hexec halarm (fun _ => hparked)).trans (congrArg Host.Outcome.next ?_)
        cases park with
        | true =>
          refine (State.parkNow_running (s := s.taken rest) ha hm).trans ?_
          rw [State.halting_taken, State.moved_requests]
          rfl
        | false =>
          refine (State.stopNow_running (s := s.taken rest) ha hm).trans ?_
          rw [State.halting_taken, State.moved_requests]
          exact congrArg (State.taken · rest) (State.halting_parkPending s a .stop).symm
      · rintro rfl hm
        exact (hexec (hne hm (by decide)) nofun).trans
          (congrArg Host.Outcome.next (State.parkNow_taken_of_idle hm))
      · refine (hexec (hne hm (by decide)) (fun _ => hne hm (by decide))).trans
          (congrArg Host.Outcome.next ?_)
        cases park with
        | true => exact State.parkNow_of_stopping (s := s.taken rest) hm
        | false => exact State.stopNow_of_rest (s := s.taken rest) (.inr hm)
      · rintro rfl hm
        refine (hexec (hne hm (by decide)) (fun _ => hne hm (by decide))).trans
          (congrArg Host.Outcome.next ?_)
        refine (State.stopNow_of_parking (s := s.taken rest) hm).trans ?_
        rw [State.stopStarted_taken]
        exact State.moved_requests { s.stopStarted s.present with seq.parkPending := false } _ rest
      · cases park with
        | true =>
          refine (exec_park_broadcast hr hd hp).trans (congrArg Host.Outcome.next ?_)
          rcases hm with ⟨-, hm⟩ | hm | hm
          · rw [parkBody_of_ne_alarm (s := s.taken rest) (hne hm (by decide)),
              State.parkNow_of_rest (s := s.taken rest) (.inl hm)]
          · rw [parkBody_of_ne_alarm (s := s.taken rest) (hne hm (by decide)),
              State.parkNow_of_rest (s := s.taken rest) (.inr hm)]
          · rw [parkBody_of_alarm (s := s.taken rest) hm]
        | false =>
          refine (exec_stop_broadcast hr hd hp).trans (congrArg Host.Outcome.next ?_)
          rw [stopBody_of_rest (s := s.taken rest) (hm.resolve_left (fun k => nomatch k.1))]
  · obtain ⟨body, hexec⟩ := exec_request (requestOf_names r.payload)
    exact ⟨by rw [hexec, takeRequest_waits hr hd hl], State.requestDue_full hr hd hl⟩
  · obtain ⟨body, hexec⟩ := exec_request hc
    rw [hexec, takeRequest_other fun q qs hq => ?_]
    cases hr.symm.trans hq
    exact hother.symm

/-! ### Mount time moves on (R61, R138, R142, R164, R165) -/

section
variable {s : State}

/-- The dwell of an active target counts (R61). -/
def State.dwells (s : State) (a : Running) : Bool :=
  decide (s.seq.motion = .tracking) &&
    (decide (a.record.guideMode ≠ .required) || decide (a.ctx.guide.state = .locked))

/-- A guide count after `d` microseconds (R138, R142). -/
def State.grown (s : State) (d : Nat) (c : Option Count) : Option Count :=
  if s.guideRuns then c.map (·.plus d) else c

/-- The active target after `d` microseconds (R61, R138, R142). -/
def State.advanced (s : State) (d : Nat) (a : Running) : Running :=
  { record := { a.record with stats.dwellCounted := a.record.stats.dwellCounted +
      (if s.dwells a then min d a.ctx.dwellRemaining else 0) }
    ctx := { a.ctx with
      dwellRemaining := a.ctx.dwellRemaining - (if s.dwells a then d else 0)
      guide := { a.ctx.guide with
        watch := s.grown d a.ctx.guide.watch, lost := s.grown d a.ctx.guide.lost } } }

theorem State.advanced_of_dwells {a : Running} (d : Nat) (h : s.dwells a = true) :
    s.advanced d a = { countDwell d a with ctx := { (countDwell d a).ctx with
      guide := { a.ctx.guide with
        watch := s.grown d a.ctx.guide.watch, lost := s.grown d a.ctx.guide.lost } } } := by
  rw [State.advanced, if_pos h, if_pos h]
  rfl

theorem State.advanced_of_not_dwells {a : Running} (d : Nat) (h : s.dwells a = false) :
    s.advanced d a = { a with ctx.guide := { a.ctx.guide with
      watch := s.grown d a.ctx.guide.watch, lost := s.grown d a.ctx.guide.lost } } := by
  rw [State.advanced, h]
  rfl

theorem State.passTime_advanced (s : State) (d : Nat) : s.passTime d = { s with
    time.mount := s.time.mount + d
    seq := { s.seq with
      active := s.seq.active.map (s.advanced d)
      startHanded := s.seq.startHanded || s.startCrossed (s.time.mount + d)
      sup.graceCount := s.seq.sup.graceCount.map (· + d) } } := by
  obtain ⟨f, -, hpass⟩ := s.passTime_eq d
  suffices hactive : (s.passTime d).seq.active = s.seq.active.map (s.advanced d) by
    rw [hpass] at hactive ⊢
    rw [← hactive]
  cases ha : s.seq.active with
  | none => rw [hpass]; simp only [ha, Option.map_none]
  | some a =>
    have hcounts : s.dwellCounts = s.dwells a := by rw [State.dwellCounts, ha]; rfl
    by_cases hd : s.dwells a = true <;> by_cases hg : s.guideRuns = true <;>
      simp [State.passTime, hcounts, hd, hg, State.mapActive, State.mapGuide, State.mapContext, ha, State.advanced_of_dwells,
        State.advanced_of_not_dwells, State.grown, countDwell]

theorem windowPassed_eq (now : Nat) (q : TargetRecord) :
    windowPassed now q = q.latestStart.any (fun l => decide (l < now)) := by
  rw [windowPassed]
  cases q.latestStart <;> rfl

/-- One microsecond crosses exactly the start that it reaches (R164). -/
theorem State.startCrossed_one (s : State) : s.startCrossed (s.time.mount + 1) =
    (s.time.valid && s.seq.queue.head?.any (fun q =>
      decide (q.earliestStart = some (s.time.mount + 1)))) := by
  have hreached : ∀ o : Option Nat, o.any (fun t => decide (s.time.mount < t) &&
      decide (t ≤ s.time.mount + 1)) = decide (o = some (s.time.mount + 1)) := by
    rintro (_ | t)
    · rfl
    · rw [Option.any_some, ← Bool.decide_and, decide_eq_decide, Option.some_inj]
      omega
  simp only [State.startCrossed, hreached]

/-- While mount time runs, a tick is one microsecond of it and the byte time on the links (log 3). -/
theorem State.tick_runs (h : s.time.mount < Config.mountTimeMax) : s.tick = { s with
    time.mount := s.time.mount + 1
    seq := { s.seq with
      active := s.seq.active.map (s.advanced 1)
      startHanded := s.seq.startHanded || (s.time.valid && s.seq.queue.head?.any (fun q =>
        decide (q.earliestStart = some (s.time.mount + 1))))
      expiryHanded := if s.time.valid then queuedIds s.seq.queue (fun q =>
          q.latestStart.any (fun l => decide (l < s.time.mount + 1)) ||
            decide (q.targetId ∈ s.seq.expiryHanded))
        else s.seq.expiryHanded
      sup.graceCount := s.seq.sup.graceCount.map (· + 1) }
    site := { s.site with
      tx := s.site.tx.tick
      rx := (rxIdle s.site.rx 1).1
      linkErrors := tickErrors s.site.rx s.site.linkErrors }
    ports := s.ports.map AxisPort.tick } := by
  rw [State.tick, if_pos h, State.handExpiries_eq, State.passTime_advanced, State.startCrossed_one]
  simp only [windowPassed_eq, List.contains_eq_mem]

theorem State.tick_stands (h : ¬s.time.mount < Config.mountTimeMax) : s.tick = { s with
    site := { s.site with
      tx := s.site.tx.tick
      rx := (rxIdle s.site.rx 1).1
      linkErrors := tickErrors s.site.rx s.site.linkErrors }
    ports := s.ports.map AxisPort.tick } := by
  rw [State.tick, if_neg h]

end

/-- Settles O2: the three kinds of step, and a tick written out while mount time runs and where it stands. -/
theorem stepWithoutCommands : Obligations.StepWithoutCommands := by
  unfold Obligations.StepWithoutCommands
  intro s hp
  refine ⟨fun c => step_due hp, fun hn => ?_⟩
  intro runs counts guides up line quiet counted
  have hquiet : ∀ r, quiet r = (rxIdle r 1).1 := by
    rintro (_ | ⟨bytes, idle⟩ | idle)
    · rfl
    all_goals
      by_cases h : 1 ≤ idle
      · simp [quiet, rxIdle, h, show 2 ≤ idle + 1 by omega]
      · simp [quiet, rxIdle, h, show ¬2 ≤ idle + 1 by omega]
  have hcounted : ∀ r n, counted r n = tickErrors r n := by
    rintro (_ | ⟨bytes, idle⟩ | idle) n
    · rfl
    · by_cases h : 1 ≤ idle
      · by_cases hn : n < 65535
        · simp [counted, tickErrors, rxIdle, h, show 2 ≤ idle + 1 by omega, raiseCount, hn,
            show ¬65535 ≤ n by omega]
        · simp [counted, tickErrors, rxIdle, h, show 2 ≤ idle + 1 by omega, raiseCount, hn,
            show 65535 ≤ n by omega]
      · simp [counted, tickErrors, rxIdle, h, show ¬2 ≤ idle + 1 by omega]
    · by_cases h : 1 ≤ idle
      · simp [counted, tickErrors, rxIdle, show 2 ≤ idle + 1 by omega]
      · simp [counted, tickErrors, rxIdle, show ¬2 ≤ idle + 1 by omega]
  have hports : (Lanes.of fun x => { s.ports.get x with
      tx := line (s.ports.get x).tx
      rx := quiet (s.ports.get x).rx
      linkErrors := counted (s.ports.get x).rx (s.ports.get x).linkErrors }) =
      s.ports.map AxisPort.tick := by
    simp only [hquiet, hcounted]
    rfl
  rw [step_idle hp hn, hports, hquiet, hcounted]
  by_cases hrun : s.time.mount < Config.mountTimeMax
  · have hruns : runs = true := decide_eq_true hrun
    rw [State.tick_runs hrun]
    simp only [counts, up, guides, hruns, Bool.true_and, if_true]
    rfl
  · have hruns : runs = false := decide_eq_false hrun
    have hsame : (s.seq.active.map fun a : Running =>
        { record := { a.record with stats.dwellCounted := a.record.stats.dwellCounted +
            (if counts a then min 1 a.ctx.dwellRemaining else 0) }
          ctx := { a.ctx with
            dwellRemaining := a.ctx.dwellRemaining - (if counts a then 1 else 0)
            guide := { a.ctx.guide with
              watch := up a.ctx.guide.watch, lost := up a.ctx.guide.lost } } }) = s.seq.active := by
      simp only [counts, up, guides, hruns, Bool.false_and, Bool.false_eq_true, if_false]
      exact Option.map_id'
    rw [State.tick_stands hrun, hsame]
    simp only [hruns, Bool.false_and, Bool.false_eq_true, if_false, Bool.or_false]
    rfl

/-! ### A step of mount time (R159, R161, R165, R166) -/

section
variable {s m : State} {value : Nat}

/-- A step of mount time moves the clock and what `State.stepped` says. -/
def State.clockMoved (s : State) (value : Nat) : State :=
  { s.stepped value with time := { s.time with mount := value, valid := true } }

/-- A queued record that leaves with a step of mount time to a value: the test of `State.passedBy`. -/
def State.passes (s : State) (value : Nat) (q : TargetRecord) : Bool :=
  q.latestStart.any (fun l => decide (l < value)) || decide (q.targetId ∈ s.seq.expiryHanded)

/-- The expiries of some queued records handed over. -/
def State.handing (m : State) (test : TargetRecord → Bool) : State :=
  { m with seq.expiryHanded := queuedIds m.seq.queue test }

theorem State.stepped_seq (s : State) (value : Nat) :
    (s.stepped value).seq.queue = s.seq.queue ∧ (s.stepped value).seq.expiryHanded = [] ∧
      (s.stepped value).seq.motion = s.seq.motion ∧ (s.stepped value).seq.mode = s.seq.mode ∧
      (s.stepped value).seq.shelf = s.seq.shelf := by
  unfold State.stepped
  dsimp only
  split <;> exact ⟨rfl, rfl, rfl, rfl, rfl⟩

theorem State.stepped_fields (s : State) (value : Nat) :
    (s.stepped value).rep = s.rep ∧ (s.stepped value).cond = s.cond ∧ (s.stepped value).ports = s.ports ∧
      (s.stepped value).site = s.site ∧ (s.stepped value).guide = s.guide ∧
      (s.stepped value).servo.latest = s.servo.latest ∧ (s.stepped value).activeId = s.activeId := by
  unfold State.stepped
  dsimp only
  split
  · refine ⟨rfl, rfl, rfl, rfl, rfl, rfl, ?_⟩
    unfold State.activeId
    cases s.seq.active <;> rfl
  · exact ⟨rfl, rfl, rfl, rfl, rfl, rfl, rfl⟩

/-- A step of mount time moves no record from its place. -/
theorem State.stepped_ids (s : State) (value : Nat) : (s.stepped value).ids = s.ids := by
  rw [State.ids_eq, State.ids_eq, (s.stepped_seq value).1, (s.stepped_seq value).2.2.2.2]
  unfold State.stepped
  dsimp only
  split
  · cases s.seq.active <;> rfl
  · rfl

/-- What a step moves depends on the clock alone of what stands beside the Sequencer and the servo. -/
theorem State.stepped_site (s : State) (site : SitePort) (value : Nat) :
    State.stepped { s with site } value = { s.stepped value with site } := by
  unfold State.stepped
  dsimp only
  split <;> rfl

theorem State.stepped_capture (s : State) (pulseTime : Option Nat) (pulseNew : Bool) (load : Option Nat)
    (value : Nat) :
    State.stepped { s with time := { s.time with pulseTime, pulseNew, load } } value =
      { s.stepped value with time := { s.time with pulseTime, pulseNew, load } } := by
  unfold State.stepped
  dsimp only
  split <;> rfl

/-- A step of mount time, with the expiries of the passed windows handed over (R165, R166). -/
theorem State.setClock_eq (s : State) (value : Nat) :
    s.setClock value = (s.clockMoved value).handing (s.passes value) := by
  have hpasses : s.passes value = fun q => windowPassed value q || s.seq.expiryHanded.contains q.targetId := by
    funext q
    rw [State.passes, windowPassed_eq, List.contains_eq_mem]
  rw [State.handing, hpasses, State.setClock, State.handExpiries_eq, State.clockMoved, State.stepped]
  dsimp only
  by_cases h : s.time.mount ≤ value
  · rw [if_pos h, if_pos h, State.passTime_advanced, Nat.add_sub_cancel' h]
    rfl
  · rw [if_neg h, if_neg h]
    rfl

/-! ### The handed-over expiries taken (R15, R16, R165) -/

/-- With each target_id standing once, the records handed over are the ones that were picked. -/
theorem State.handing_handed (hone : m.idsUnique) (test : TargetRecord → Bool) :
    (m.handing test).handed = m.seq.queue.filter test := by
  have hnodup : (m.seq.queue.map (·.targetId)).Nodup := by
    have hall := hone
    rw [State.idsUnique, ← State.ids, State.ids_eq] at hall
    exact (List.nodup_append.mp hall).1
  refine List.filter_congr fun q hq => ?_
  rw [Bool.eq_iff_iff, decide_eq_true_iff]
  refine (mem_queuedIds _ _ _).trans ⟨fun ⟨r, hr, htest, hid⟩ => ?_, fun htest => ⟨q, hq, htest, rfl⟩⟩
  exact List.inj_on_of_nodup_map hnodup hr hq hid ▸ htest

/-- A queue in which no expiry stays handed over. -/
theorem State.queued_of_unhanded {queue : List TargetRecord}
    (h : ∀ q ∈ queue, q.targetId ∉ m.seq.expiryHanded) : m.queued queue = { m with
      seq.queue := queue
      seq.starved := m.seq.starved && decide (headId queue = headId m.seq.queue)
      seq.startHanded := m.seq.startHanded && decide (headId queue = headId m.seq.queue)
      seq.expiryHanded := [] } := by
  have hnone : queue.filter (fun q => decide (q.targetId ∈ m.seq.expiryHanded)) = [] :=
    List.filter_eq_nil_iff.mpr fun q hq => by simpa using h q hq
  rw [State.queued, hnone]
  rfl

theorem withoutRecords_nil (queue : List TargetRecord) : withoutRecords queue [] = queue :=
  List.filter_eq_self.mpr fun _ _ => decide_eq_true List.not_mem_nil

theorem State.expiredFrom_nil (h : m.seq.expiryHanded = []) : m.expiredFrom [] = m := by
  have hdeparted : m.departed [] = m := by simp [State.departed]
  have hleaving : leaving [] .expired .none .queued m.time.mount = [] := rfl
  rw [State.expiredFrom, hleaving, hdeparted, withoutRecords_nil, State.queued_of_unhanded (by simp [h])]
  simp only [decide_true, Bool.and_true, ← h]

theorem State.expireHanded_handed (s : State) : s.expireHanded = s.departAllQueued s.handed .expired .none := by
  simp only [State.expireHanded, State.handed, List.contains_eq_mem]

/-- Handed-over expiries of picked records, taken: those records are gone EXPIRED. -/
theorem State.handing_expireHanded (hids : m.idsValid) (hone : m.idsUnique) (h : m.seq.expiryHanded = [])
    (test : TargetRecord → Bool) :
    (m.handing test).expireHanded = m.expiredFrom (m.seq.queue.filter test) := by
  have hhanded := State.handing_handed hone test
  by_cases hnone : m.seq.queue.filter test = []
  · have hkept : m.handing test = m := by
      rw [State.handing, queuedIds, hnone, List.map_nil, ← h]
    rw [hnone, State.expiredFrom_nil h, State.expireHanded_handed, hhanded, hnone, hkept]
    rfl
  · have hsome : (m.handing test).handed ≠ [] := by rwa [hhanded]
    rw [State.expireHanded_eq (s := m.handing test) hids hsome, hhanded, State.expiredFrom,
      State.queued_of_unhanded (fun q hq hid => ?_), State.queued_of_unhanded (fun q _ hid => ?_)]
    · rfl
    · exact List.not_mem_nil (h ▸ hid : q.targetId ∈ [])
    · exact of_decide_eq_true (List.mem_filter.mp hq).2 hid

theorem State.handing_afterClock (hids : m.idsValid) (hone : m.idsUnique) (h : m.seq.expiryHanded = [])
    (test : TargetRecord → Bool) :
    (m.handing test).afterClock = (m.expiredFrom (m.seq.queue.filter test)).testActivation := by
  rw [State.afterClock, State.handing_expireHanded hids hone h]

/-- The test after the expiries acts in IDLE only, with the queue running and not empty (R51). -/
theorem State.expiredFrom_silent (h : m.seq.motion ≠ .idle ∨ m.seq.mode = .hold ∨ m.seq.queue = [])
    (passed : List TargetRecord) : (m.expiredFrom passed).testActivation = m.expiredFrom passed := by
  rcases h with h | h | h
  · exact State.testActivation_silent (.inl h)
  · exact State.testActivation_silent (.inr h)
  · refine activationTest_noHead (.inl ?_) _ _ _
    show withoutRecords m.seq.queue passed = []
    rw [h]
    rfl

/-! ### A step held back (R159, R161) -/

theorem State.stepTooLarge_of_moving {step : Int} (hm : s.seq.motion ∉ [.parked, .idle, .alarm])
    (h : 2000 < step.natAbs) : s.stepTooLarge step = true := by
  have hmoving : s.seq.motion.resting = false := by
    cases hmotion : s.seq.motion with
    | parked | idle | alarm => exact absurd hm (by simp [hmotion])
    | slewing | settling | tracking | degraded | stopping | parking => rfl
  rw [State.stepTooLarge, hmoving]
  exact decide_eq_true h

theorem State.stepTooLarge_of_taken {step : Int}
    (h : s.seq.motion ∈ [.parked, .idle, .alarm] ∨ step.natAbs ≤ 2000) : s.stepTooLarge step = false := by
  rw [State.stepTooLarge]
  rcases h with h | h
  · simp only [List.mem_cons, List.not_mem_nil, or_false] at h
    rcases h with h | h | h <;> rw [h] <;> rfl
  · rw [show decide (Config.stepLimit < step.natAbs) = false from decide_eq_false (Nat.not_lt.mpr h),
      Bool.and_false]

end

/-! ### What follows a step of mount time (R16, R51, R165) -/

section
variable {s m : State} {value : Nat}

/-- With the Sequencer that a step leaves, the windows that it passes expire and the test runs. -/
theorem State.afterClock_stepped (h : m.seq = (s.stepped value).seq) (hids : s.idsValid) (hone : s.idsUnique) :
    (m.handing (s.passes value)).afterClock = (m.expiredFrom (s.passedBy value)).testActivation := by
  obtain ⟨hqueue, hunhanded, -⟩ := s.stepped_seq value
  have hsame : m.ids = s.ids := by rw [← s.stepped_ids value, State.ids, State.ids, State.standing, h]; rfl
  have hids' : m.idsValid := by
    rw [State.idsValid_iff, hsame, ← State.idsValid_iff]
    exact hids
  have hone' : m.idsUnique := by
    rw [State.idsUnique, ← State.ids, hsame]
    exact hone
  rw [← h] at hqueue hunhanded
  rw [State.handing_afterClock hids' hone' hunhanded, hqueue]
  rfl

/-- Outside IDLE, with the queue held or with none queued, the test after a step changes nothing. -/
theorem State.testActivation_stepped (h : m.seq = (s.stepped value).seq)
    (hquiet : s.seq.motion ≠ .idle ∨ s.seq.mode = .hold ∨ s.seq.queue = []) (passed : List TargetRecord) :
    (m.expiredFrom passed).testActivation = m.expiredFrom passed := by
  obtain ⟨hqueue, -, hmotion, hmode, -⟩ := s.stepped_seq value
  refine State.expiredFrom_silent ?_ passed
  rwa [h, hqueue, hmotion, hmode]

theorem State.expiredFrom_stepped (h : m.seq = (s.stepped value).seq) (hnone : s.passedBy value = []) :
    m.expiredFrom (s.passedBy value) = m := by
  rw [hnone]
  refine State.expiredFrom_nil ?_
  rw [h]
  exact (s.stepped_seq value).2.1

end

/-! ### Set Time (R159) -/

section
variable {s : State} {rest : List Request} {p : List Byte}

/-- The state in which Set Time leaves the part before expiries and the activation test. -/
def State.timeSet (s : State) (rest : List Request) (value : Nat) : State :=
  { s.stepped value with
    site.requests := rest
    time := { s.time with mount := value, valid := true, load := none } }

theorem setTimeBody_held {value : Nat} (hl : p.length = 8) (hv : natAt p 0 8 = value)
    (h : s.stepTooLarge ((value : Int) - s.time.mount) = true) : setTimeBody p s =
      (s, { status := .timeStep, result := intBytes 8 ((value : Int) - s.time.mount) }) := by
  subst hv
  rw [setTimeBody, if_neg (not_not.mpr hl)]
  exact if_pos h

theorem setTimeBody_taken {value : Nat} (hl : p.length = 8) (hv : natAt p 0 8 = value)
    (h : s.stepTooLarge ((value : Int) - s.time.mount) = false) : setTimeBody p s =
      (State.afterClock { s.setClock value with time.load := none },
        okReply (natBytes 8 value ++ intBytes 8 ((value : Int) - s.time.mount) ++
          [flagByte s.time.load.isSome])) := by
  subst hv
  rw [setTimeBody, if_neg (not_not.mpr hl)]
  exact if_neg (Bool.eq_false_iff.mp h)

theorem State.setClock_timeSet (s : State) (rest : List Request) (value : Nat) :
    { State.setClock { s with site.requests := rest } value with time.load := none } =
      (s.timeSet rest value).handing (s.passes value) := by
  rw [State.setClock_eq, State.clockMoved, State.stepped_site, State.timeSet, (s.stepped_fields value).2.2.2.1]
  rfl

end

/-- Settles O45: the clock moves, the handed-over expiries are taken, and the activation test runs. -/
theorem setTimeSetsMountTime : Obligations.SetTimeSetsMountTime := by
  unfold Obligations.SetTimeSetsMountTime
  intro s r rest p h hl hids hone value step resting moved expired result
  have hv : natAt p 0 8 = value := natAt_whole hl
  have hseq : moved.seq = (s.stepped value).seq := rfl
  have hafter : State.afterClock { State.setClock { s with site.requests := rest } value with
      time.load := none } = expired.testActivation := by
    rw [State.setClock_timeSet]
    exact State.afterClock_stepped hseq hids hone
  have hsite : expired.testActivation.site.requests = rest :=
    congrArg SitePort.requests (activationTest_spec false _ _ expired).1.site
  refine ⟨fun hm hlarge => ?_, fun htaken => ?_⟩
  · exact exec_answers (u := s) h rfl rfl (setTimeBody_held hl hv (State.stepTooLarge_of_moving hm hlarge))
  · have hexec : exec .setTime s = .next (expired.testActivation.answered r rest 0x48 (okReply result)) :=
      exec_answers_body h rfl rfl ((setTimeBody_taken (s := { s with site.requests := rest }) hl hv
        (State.stepTooLarge_of_taken htaken)).trans (congrArg (·, okReply result) hafter)) hsite
    refine ⟨hexec, fun hquiet => ?_, fun hnone hm => ?_⟩
    · rw [hexec, State.testActivation_stepped hseq hquiet]
    · rw [hexec, State.testActivation_stepped hseq (.inl hm), State.expiredFrom_stepped hseq hnone]

/-! ### What taking the handed-over expiries keeps (R15, R16, R165) -/

section
variable {s m : State} {value : Nat}

theorem State.departAllQueued_keeps (rs : List TargetRecord) (v : Verdict) (why : Reason) :
    ∀ s : State, s.Agrees (s.departAllQueued rs v why) ∧ s.Proceeds (s.departAllQueued rs v why) := by
  induction rs with
  | nil => exact fun s => ⟨.refl s, .refl s⟩
  | cons r rs ih =>
    intro s
    obtain ⟨hagrees, hproceeds⟩ := ih (s.departQueued r v why)
    exact ⟨(s.departQueued_agrees r v why).trans hagrees, (s.departQueued_proceeds r v why).trans hproceeds⟩

/-- After some queued departures only expiries of records that still stand in the queue are handed over. -/
theorem State.departAllQueued_expiries (rs : List TargetRecord) (v : Verdict) (why : Reason) :
    ∀ s : State, (∀ id ∈ s.seq.expiryHanded, ∃ q ∈ s.seq.queue, q.targetId = id) →
      ∀ id ∈ (s.departAllQueued rs v why).seq.expiryHanded,
        id ∈ s.seq.expiryHanded ∧ ∃ q ∈ (s.departAllQueued rs v why).seq.queue, q.targetId = id := by
  induction rs with
  | nil => exact fun s h id hid => ⟨hid, h id hid⟩
  | cons r rs ih =>
    intro s _ id hid
    have hone : ∀ id ∈ (s.departQueued r v why).seq.expiryHanded,
        id ∈ s.seq.expiryHanded ∧ ∃ q ∈ (s.departQueued r v why).seq.queue, q.targetId = id := by
      intro id hid
      obtain ⟨q, hq, hhanded, rfl⟩ := (mem_queuedIds _ _ _).mp hid
      exact ⟨List.contains_iff_mem.mp hhanded, q, hq, rfl⟩
    obtain ⟨hlast, hstands⟩ := ih (s.departQueued r v why) (fun id hid => (hone id hid).2) id hid
    exact ⟨(hone id hlast).1, hstands⟩

/-- The picked records are out of the queue, and no expiry stays handed over. -/
theorem State.handing_queue (m : State) (test : TargetRecord → Bool) :
    (m.handing test).expireHanded.seq.queue = withoutRecords m.seq.queue (m.seq.queue.filter test) ∧
      (m.handing test).expireHanded.seq.expiryHanded = [] := by
  have hmem : ∀ id, id ∈ (m.handing test).handed.map (·.targetId) ↔ id ∈ queuedIds m.seq.queue test := by
    intro id
    refine ⟨fun h => ?_, fun h => ?_⟩
    · obtain ⟨q, hq, rfl⟩ := List.mem_map.mp h
      exact of_decide_eq_true (List.mem_filter.mp hq).2
    · obtain ⟨q, hq, -, rfl⟩ := (mem_queuedIds _ _ _).mp h
      exact List.mem_map_of_mem (List.mem_filter.mpr ⟨hq, decide_eq_true h⟩)
  have hqueue := State.departAllQueued_queue (m.handing test).handed .expired .none (m.handing test)
  rw [State.expireHanded_handed]
  refine ⟨hqueue.trans (List.filter_congr fun q _ => decide_eq_decide.mpr (not_congr (hmem _))),
    List.eq_nil_iff_forall_not_mem.mpr fun id hid => ?_⟩
  obtain ⟨hhanded, q, hq, rfl⟩ := State.departAllQueued_expiries _ _ _ (m.handing test)
    (fun id h => (mem_queuedIds _ _ _).mp h |>.imp fun q k => ⟨k.1, k.2.2⟩) id hid
  rw [hqueue] at hq
  exact of_decide_eq_true (List.mem_filter.mp hq).2 ((hmem _).mpr hhanded)

theorem activationTest_shelf (inRule : Bool) (o : Lanes Motion) :
    ∀ (n : Nat) (s : State), (activationTest inRule o n s).seq.shelf = s.seq.shelf := by
  intro n
  induction n with
  | zero => exact fun s => rfl
  | succ n ih =>
    intro s
    have hstarve : ∀ (t : State) r point covered, (t.starve r point covered).seq.shelf = t.seq.shelf := by
      intro t r point covered
      unfold State.starve
      split <;> rfl
    conv_lhs => unfold activationTest
    split
    · rfl
    · split
      · dsimp only
        split
        · exact hstarve _ _ _ _
        · exact ih _
        · split
          · exact (State.takeSlot_lists _ _ _).2.1
          · exact hstarve _ _ _ _
      · rfl

/-- What expiries and the activation test after a step keep: all but the queue and what a slew takes. -/
theorem State.afterClock_keeps (s : State) : s.Agrees s.afterClock ∧ s.Proceeds s.afterClock ∧
    s.afterClock.seq.shelf = s.seq.shelf := by
  have hexpire : s.Agrees s.expireHanded ∧ s.Proceeds s.expireHanded ∧
      s.expireHanded.seq.shelf = s.seq.shelf := by
    rw [State.expireHanded_handed]
    obtain ⟨hagrees, hproceeds⟩ := State.departAllQueued_keeps s.handed .expired .none s
    have hfields := State.departAllQueued_fields s.handed .expired .none s
    exact ⟨hagrees, hproceeds, by simp only [hfields]⟩
  obtain ⟨hagrees, hproceeds, hshelf⟩ := hexpire
  exact ⟨hagrees.trans (activationTest_spec _ _ _ _).1, hproceeds.trans (activationTest_proceeds _ _ _ _),
    (activationTest_shelf _ _ _ _).trans hshelf⟩

/-- Outside IDLE the picked records leave and nothing follows. -/
theorem State.handing_afterClock_moving (h : m.seq.motion ≠ .idle) (test : TargetRecord → Bool) :
    (m.handing test).afterClock.seq.motion = m.seq.motion ∧
      (m.handing test).afterClock.seq.expiryHanded = [] ∧
      (m.handing test).afterClock.seq.queue = withoutRecords m.seq.queue (m.seq.queue.filter test) := by
  have hmotion : (m.handing test).expireHanded.seq.motion = m.seq.motion := by
    have hfields := State.departAllQueued_fields (m.handing test).handed .expired .none (m.handing test)
    rw [State.expireHanded_handed]
    simp only [hfields]
    rfl
  have hsilent : (m.handing test).afterClock = (m.handing test).expireHanded :=
    State.testActivation_silent (.inl (hmotion ▸ h))
  obtain ⟨hqueue, hnone⟩ := m.handing_queue test
  rw [hsilent]
  exact ⟨hmotion, hnone, hqueue⟩

end

/-! ### A PULSE edge (R161) -/

section
variable {s : State} {value : Nat}

/-- The state in which a done pulse load leaves the part before expiries and the activation test. -/
def State.loaded (s : State) (value : Nat) : State :=
  { s.stepped value with
    time := { mount := value, valid := true, pulseTime := some s.time.mount
              pulseNew := true, load := none }
    rep := offerReport s.rep (.pulseLoad false value s.time.mount ((value : Int) - s.time.mount)) s.time.mount
      s.activeId }

theorem exec_pulseEdge_unarmed (h : s.time.load = none) : exec .pulseEdge s = .next s.capturePulse := by
  show execPulseEdge s = _
  rw [execPulseEdge, h]

theorem exec_pulseEdge_armed (h : s.time.load = some value) :
    exec .pulseEdge s = .next (s.capturePulse.pulseLoad value) := by
  show execPulseEdge s = _
  rw [execPulseEdge, h]

theorem State.capturePulse_held (h : s.stepTooLarge ((value : Int) - s.time.mount) = true) :
    s.capturePulse.pulseLoad value = { s with
      time := { s.time with pulseTime := some s.time.mount, pulseNew := true, load := none }
      rep := offerReport s.rep (.pulseLoad true value s.time.mount ((value : Int) - s.time.mount))
        s.time.mount s.activeId } :=
  if_pos h

theorem State.capturePulse_taken (h : s.stepTooLarge ((value : Int) - s.time.mount) = false) :
    s.capturePulse.pulseLoad value = ((s.loaded value).handing (s.passes value)).afterClock := by
  let edge : State :=
    { s with time := { s.time with pulseTime := some s.time.mount, pulseNew := true, load := none } }
  have hclock : edge.setClock value = (edge.clockMoved value).handing (s.passes value) := edge.setClock_eq value
  obtain ⟨hrep, -, -, -, -, -, hid⟩ := edge.stepped_fields value
  have hid' : (edge.setClock value).activeId = s.activeId := by rw [hclock]; exact hid
  have hrep' : (edge.setClock value).rep = s.rep := by rw [hclock]; exact hrep
  refine (if_neg (Bool.eq_false_iff.mp h)).trans ?_
  show State.afterClock { edge.setClock value with
    rep := offerReport (edge.setClock value).rep
      (.pulseLoad false value s.time.mount ((value : Int) - s.time.mount)) s.time.mount
      (edge.setClock value).activeId } = _
  rw [hid', hrep', hclock, State.clockMoved, State.stepped_capture]
  rfl

end

/-- Settles O46: the load is armed alone; an edge without one captures the clock, and with one steps it. -/
theorem pulseLoadsMountTime : Obligations.PulseLoadsMountTime := by
  unfold Obligations.PulseLoadsMountTime
  intro s r rest p
  refine ⟨fun h hl => ?_, fun h => exec_pulseEdge_unarmed h, fun value hload => ?_⟩
  · refine exec_answers (body := setTimeAtPulseBody) h rfl rfl ?_
    rw [setTimeAtPulseBody, if_neg (not_not.mpr hl), natAt_whole hl]
    rfl
  intro step resting
  have hexec : resting ∨ step.natAbs ≤ 2000 →
      exec .pulseEdge s = .next ((s.loaded value).handing (s.passes value)).afterClock := fun htaken => by
    rw [exec_pulseEdge_armed hload, State.capturePulse_taken (State.stepTooLarge_of_taken htaken)]
  refine ⟨fun hm hlarge => ?_, fun htaken hids hone => ?_, fun htaken => ⟨_, hexec htaken, ?_⟩⟩
  · rw [exec_pulseEdge_armed hload, State.capturePulse_held (State.stepTooLarge_of_moving hm hlarge)]
  · intro moved expired
    have hseq : moved.seq = (s.stepped value).seq := rfl
    have hafter : exec .pulseEdge s = .next expired.testActivation :=
      (hexec htaken).trans (congrArg Host.Outcome.next (State.afterClock_stepped hseq hids hone))
    refine ⟨hafter, fun hquiet => ?_, fun hnone hm => ?_⟩
    · rw [hafter, State.testActivation_stepped hseq hquiet]
    · rw [hafter, State.testActivation_stepped hseq (.inl hm), State.expiredFrom_stepped hseq hnone]
  · obtain ⟨hqueue, -, hmotion, hmode, hshelf⟩ := s.stepped_seq value
    obtain ⟨-, hcond, hports, hsite, hguide, hlatest, -⟩ := s.stepped_fields value
    obtain ⟨hagrees, hproceeds, hkept⟩ := ((s.loaded value).handing (s.passes value)).afterClock_keeps
    refine ⟨hagrees.time, hproceeds.rep, fun hm => ?_, hproceeds.mode.trans hmode, hkept.trans hshelf,
      hagrees.cond.trans hcond, hagrees.ports.trans hports, hagrees.site.trans hsite,
      hagrees.guide.trans hguide, hagrees.latest.trans hlatest⟩
    have hm' : (s.loaded value).seq.motion ≠ .idle := hmotion ▸ hm
    obtain ⟨hstays, hnone, hleft⟩ := State.handing_afterClock_moving hm' (s.passes value)
    refine ⟨hstays.trans hmotion, hnone, hleft.trans ?_⟩
    rw [show (s.loaded value).seq.queue = s.seq.queue from hqueue]
    rfl

end Sys2Proof.Machine

/-! # The plan, the setpoint slots and the tables: obligations O9, O41, O42 -/

namespace Sys2Proof.Machine

set_option Elab.async false

/-! ## The plan and the setpoint slots (R84, R121, R130, R131)

Both invariants of O9 read the motion state, the current plan and the setpoint slots alone. Nearly every operation
`steers`: it keeps the plan the motion state's own, enters neither PARKED nor ALARM, and fills no setpoint slot where
it leaves the part in one of them. The three that do not steer are an entry to PARKED, an entry to ALARM and a pin
reset, and each of these leaves the state with no plan and the slots empty. -/

/-- PARKED and ALARM, in which no SETPOINT waits (R121, R130, R131). -/
def MotionState.quiet (m : MotionState) : Prop := m = .parked ∨ m = .alarm

/-- The plan stays the motion state's own; and the part is at rest only where it was, with no setpoint slot filled. -/
structure State.Steers (s t : State) : Prop where
  plan : s.planMatches → t.planMatches
  rest : t.seq.motion.quiet → s.seq.motion.quiet ∧
    ∀ x : Lane, (s.ports.get x).setpoint = none → (t.ports.get x).setpoint = none

/-- Each of the two invariants is kept for itself. -/
structure State.Complies (s t : State) : Prop where
  plan : s.planMatches → t.planMatches
  rest : s.quietAtRest → t.quietAtRest

section
variable {r s t u : State}

theorem State.Steers.refl (s : State) : s.Steers s := ⟨id, fun h => ⟨h, fun _ => id⟩⟩

theorem State.Steers.trans (h : s.Steers t) (k : t.Steers u) : s.Steers u where
  plan hs := k.plan (h.plan hs)
  rest hu :=
    have ⟨ht, hslots⟩ := k.rest hu
    have ⟨hs, hslots'⟩ := h.rest ht
    ⟨hs, fun x hx => hslots x (hslots' x hx)⟩

theorem State.Steers.complies (h : s.Steers t) : s.Complies t where
  plan := h.plan
  rest hs ht :=
    have ⟨hrest, hslots⟩ := h.rest ht
    fun x => hslots x (hs hrest x)

theorem State.Complies.refl (s : State) : s.Complies s := (State.Steers.refl s).complies

theorem State.Complies.trans (h : s.Complies t) (k : t.Complies u) : s.Complies u :=
  ⟨k.plan ∘ h.plan, k.rest ∘ h.rest⟩

/-- A state that has the invariants has them wherever it comes from. -/
theorem State.Complies.of_sound (plan : t.planMatches) (rest : t.quietAtRest) : s.Complies t :=
  ⟨fun _ => plan, fun _ => rest⟩

/-- A change of the axis ports that fills no setpoint slot. -/
theorem State.Steers.of_slots
    (slots : ∀ x : Lane, (s.ports.get x).setpoint = none → (t.ports.get x).setpoint = none)
    (motion : t.seq.motion = s.seq.motion := by rfl)
    (current : t.planner.current = s.planner.current := by rfl) : s.Steers t where
  plan := by
    unfold State.planMatches
    rw [motion, current]
    exact id
  rest ht := ⟨motion ▸ ht, slots⟩

theorem State.Steers.of_fields (motion : t.seq.motion = s.seq.motion := by rfl)
    (current : t.planner.current = s.planner.current := by rfl) (ports : t.ports = s.ports := by rfl) :
    s.Steers t :=
  .of_slots (fun _ hx => by rwa [ports]) motion current

/-- A state with its own plan that is neither PARKED nor ALARM is steered to from any other. -/
theorem State.Steers.of_planned (plan : t.planMatches) (moving : ¬ t.seq.motion.quiet) : r.Steers t :=
  ⟨fun _ => plan, fun ht => absurd ht moving⟩

/-- A plan begun with its own motion state. -/
theorem State.Steers.of_own {m : MotionState} (motion : t.seq.motion = m)
    (own : t.planner.current.state? = some m) : r.Steers t := by
  have hm : m.planned? = some m ∧ ¬ m.quiet := by
    cases hp : t.planner.current <;> rw [hp] at own <;> cases own <;> exact ⟨rfl, nofun⟩
  exact .of_planned (own.trans (motion ▸ hm.1.symm)) (motion ▸ hm.2)

theorem State.Steers.of_slews (h : t.slews) : r.Steers t := by
  obtain ⟨hm, -, p, hp⟩ := h
  exact .of_own hm (by rw [hp]; rfl)

theorem State.Steers.of_ends (h : t.ends) : r.Steers t := by
  rcases h with h | ⟨hm, -, p, hp⟩ | ⟨hm, -, p, hp⟩
  · exact .of_slews h
  · exact .of_own hm (by rw [hp]; rfl)
  · exact .of_own hm (by rw [hp]; rfl)

/-- The composing states have no plan, so a move among them leaves none to replace (R84, R113). -/
theorem State.Steers.of_moves (h : s.moves t) : s.Steers t := by
  obtain ⟨hagrees, hplanner, -, hm | ⟨hs, ht⟩⟩ := h
  · exact .of_fields hm (by rw [hplanner]) hagrees.ports
  · have hcomposing : ∀ m : MotionState, m.composing = true → m.planned? = none ∧ ¬ m.quiet := by
      intro m
      cases m <;> simp [MotionState.composing, MotionState.planned?, MotionState.quiet]
    obtain ⟨hs', -⟩ := hcomposing _ hs
    obtain ⟨ht', hmoving⟩ := hcomposing _ ht
    refine ⟨fun hp => ?_, fun hrest => absurd hrest hmoving⟩
    rw [State.planMatches, hplanner, ht', ← hs']
    exact hp

/-! ### The Sequencer's operations -/

theorem activationTest_steers (inRule : Bool) (o : Lanes Motion) (n : Nat) (s : State) :
    s.Steers (activationTest inRule o n s) := by
  obtain ⟨hagrees, ⟨hm, -, hp⟩ | hslews⟩ := activationTest_spec inRule o n s
  · exact .of_fields hm (by rw [hp]) hagrees.ports
  · exact .of_slews hslews

theorem State.testActivation_steers (s : State) : s.Steers s.testActivation :=
  activationTest_steers _ _ _ s

theorem State.retestIfHeadChanged_steers (s before : State) : s.Steers (s.retestIfHeadChanged before) := by
  unfold State.retestIfHeadChanged
  split
  · exact .refl s
  · exact s.testActivation_steers

theorem State.enterIdle_steers (r s : State) (hold : Lanes Int) : r.Steers (s.enterIdle hold) := by
  rcases s.enterIdle_spec hold with h | ⟨hm, -, hp⟩
  · exact .of_slews h
  · refine .of_planned ?_ (by rw [hm]; nofun)
    rw [State.planMatches, hm, hp]
    rfl

theorem State.takeSlot_steers (r s : State) (a : Running) (p : SlewPlan) : r.Steers (s.takeSlot a p) :=
  .of_slews (s.takeSlot_slews a p)

theorem State.startPark_steers (r s : State) (o : Lanes Motion) : r.Steers (s.startPark o) := by
  obtain ⟨-, hm, -, -, hp⟩ := s.startPark_spec o
  exact .of_own hm (by rw [hp]; rfl)

theorem State.startStop_steers (r s : State) (o : Lanes Motion) : r.Steers (s.startStop o) := by
  obtain ⟨-, hm, -, hp⟩ := s.startStop_spec o
  exact .of_own hm (by rw [hp]; rfl)

theorem State.haltRun_steers (r s : State) (why : Reason) : r.Steers (s.haltRun why) := by
  obtain ⟨-, hm, -, -, -, -, p, hp⟩ := s.haltRun_spec why
  exact .of_own hm (by rw [hp]; rfl)

theorem State.endActive_steers (r s : State) (v : Verdict) (why : Reason) : r.Steers (s.endActive v why) :=
  .of_ends (s.endActive_spec v why).2

theorem State.departAllQueued_steers (s : State) (rs : List TargetRecord) (v : Verdict) (why : Reason) :
    s.Steers (s.departAllQueued rs v why) := by
  obtain ⟨-, hp, -, -, -, -, hports, -, -, -, -, -, -, -, hm, -⟩ := State.departAllQueued_fields rs v why s
  exact .of_fields hm (congrArg _ hp) hports

theorem State.expireHanded_steers (s : State) : s.Steers s.expireHanded := s.departAllQueued_steers _ _ _

theorem State.raiseCondition_steers (s : State) (c : Condition) (q : Byte) (n : Nat) :
    s.Steers (s.raiseCondition c q n) :=
  (s.raiseCondition_spec c q n).2.elim .of_moves .of_ends

theorem State.addCause_steers (s : State) (c : DegradeCause) (x : Lane) : s.Steers (s.addCause c x) :=
  .of_moves (s.addCause_moves c x)

theorem State.removeCause_steers (s : State) (c : DegradeCause) (x : Lane) : s.Steers (s.removeCause c x) :=
  .of_moves (s.removeCause_moves c x)

/-- An entry to ALARM leaves no plan and empties the setpoint slots (R72, R131). -/
theorem State.raiseAlarm_complies (s : State) (k : AlarmKind) (x : Option Lane) :
    s.Complies (s.raiseAlarm k x) := by
  unfold State.raiseAlarm
  split
  · split
    · exact .refl s
    · exact (State.Steers.of_fields (s := s)).complies
  · obtain ⟨hm, -, -, -, -, -, hp, -, -, -, -, -, -, hports⟩ := State.enterAlarm_spec (State.report
      { s with
        cond.first := some { kind := k, axis := x, time := s.time.mount }
        cond.causeSet := [(k, x)] } (.alarmRaised k x true) s.activeId) k x
    refine .of_sound ?_ fun _ y => (hports y).1
    rw [State.planMatches, hm, hp]
    rfl

/-- An entry to PARKED leaves no plan and empties the setpoint slots (R71, R84, R130). -/
theorem State.enterParked_complies (r s : State) : r.Complies s.enterParked := by
  let parking : State := { s.brakeAll with planner.current := .none, servo.watch := .const none }
  have hports : s.enterParked.ports = parking.ports := (parking.enter_agrees .parked).ports
  refine .of_sound ?_ fun _ x => ?_
  · unfold State.enterParked
    rw [State.planMatches, State.enter_motion, State.enter_current]
    rfl
  · rw [hports]
    exact congrArg AxisPort.setpoint (Lanes.get_of _ x)

/-! ### Guiding -/

theorem State.startAcquiring_steers (s : State) (cause : GuideCause) : s.Steers (s.startAcquiring cause) := by
  obtain ⟨rep, freeIndex, f, -, he⟩ := State.startAcquiring_eq s cause
  rw [he]
  exact .of_fields

theorem State.loseGuide_steers (s : State) (left : GuideState) (cause : GuideCause) :
    s.Steers (s.loseGuide left cause) := by
  obtain ⟨rep, freeIndex, f, -, he⟩ := State.loseGuide_eq s left cause
  rw [he]
  exact .of_fields

theorem State.reportGuide_steers (s : State) (left : GuideState) (cause : GuideCause) :
    s.Steers (s.reportGuide left cause) := by
  obtain ⟨rep, he⟩ := State.reportGuide_eq s left cause
  rw [he]
  exact .of_fields

theorem State.lockGuide_steers (s : State) (left : GuideState) : s.Steers (s.lockGuide left) := by
  unfold State.lockGuide
  dsimp only
  split
  · exact .of_fields
  · exact .trans .of_fields (State.reportGuide_steers _ _ _)

theorem State.startGuide_steers (s : State) (left : GuideState) : s.Steers (s.startGuide left) := by
  unfold State.startGuide
  dsimp only
  split
  · exact .trans .of_fields (State.startAcquiring_steers _ _)
  · exact .of_fields

theorem State.stopGuide_steers (s : State) (left : GuideState) (clear : Bool) :
    s.Steers (s.stopGuide left clear) := by
  unfold State.stopGuide
  dsimp only
  split
  · exact .of_fields
  · exact .trans .of_fields (State.reportGuide_steers _ _ _)

theorem State.goodGuide_steers (s : State) (c : GuideContext) (g : GuideConfig) (f : GuideFields) :
    s.Steers (s.goodGuide c g f) := by
  have hlocked : ∀ (t : State) (azStep elStep : Int), t.Steers ((t.addSteps g azStep elStep).lockGuide c.state) :=
    fun t _ _ => .trans .of_fields (State.lockGuide_steers _ _)
  unfold State.goodGuide
  dsimp only
  split
  · exact hlocked _ _ _
  · split
    · exact (State.Steers.of_moves (s.flagCondition_moves _ _ _)).trans (hlocked _ _ _)
    · exact State.endActive_steers _ _ _ _

theorem State.takeGuide_steers (s : State) (src : Byte) (payload : List Byte) :
    s.Steers (s.takeGuide src payload) := by
  unfold State.takeGuide
  split
  · split
    · exact .refl s
    · dsimp only
      split
      · exact .trans .of_fields (State.goodGuide_steers _ _ _ _)
      · exact .of_fields
  · exact .refl s

theorem State.expireGuideWatch_steers (s : State) : s.Steers s.expireGuideWatch := by
  unfold State.expireGuideWatch
  split
  · exact .refl s
  · exact State.loseGuide_steers _ _ _

end

/-! ### The steps of a sample (R118) -/

section
variable (s : State) (x : Lane)

theorem State.checkDrive_complies (f : SampleFields) : s.Complies (s.checkDrive x f) := by
  have hfault : s.Complies (if f.fault then s.raiseAlarm .driveFault (some x) else s) := by
    split
    · exact s.raiseAlarm_complies _ _
    · exact .refl s
  unfold State.checkDrive
  dsimp only
  split
  · exact hfault.trans (State.raiseAlarm_complies _ _ _)
  · exact hfault

theorem State.evaluateSample_steers : s.Steers s.evaluateSample.1 := by
  unfold State.evaluateSample
  split
  · exact .refl s
  · split
    · exact .refl s
    · exact s.endActive_steers _ _ _

theorem State.occur_steers (c : Condition) : s.Steers (s.occur c x).1 := s.raiseCondition_steers _ _ _

theorem State.evaluateChain_steers (c : Chain) (t : Nat) : s.Steers (s.evaluateChain x c t).1 := by
  unfold State.evaluateChain
  split
  · dsimp only
    split
    · exact s.occur_steers x _
    · exact ((s.occur_steers x _).trans (State.addCause_steers _ _ _)).trans .of_fields
  · dsimp only
    split
    · exact .trans .of_fields (State.removeCause_steers _ _ _)
    · exact .of_fields

theorem State.refillTest_steers (id : Nat) : s.Steers (s.refillTest id x) := by
  unfold State.refillTest
  split
  · exact .refl s
  · split
    · exact .of_fields
    · exact .refl s

theorem State.evaluateLane_steers (t : Nat) : s.Steers (s.evaluateLane x t).1 := by
  unfold State.evaluateLane
  split
  · exact .refl s
  · rename_i a _
    dsimp only
    split
    · exact .refl s
    · have hretired : s.Steers
          { s with chains := mapChain s.chains a.record.targetId x (fun c => c.retire t) } := .of_fields
      split
      · split
        · exact hretired.trans (State.evaluateChain_steers _ x _ t)
        · exact (hretired.trans (State.evaluateChain_steers _ x _ t)).trans (State.refillTest_steers _ x _)
      · exact hretired.trans (State.refillTest_steers _ x _)

theorem State.runningSteps_steers (t : Nat) : s.Steers (s.runningSteps x t).1 := by
  unfold State.runningSteps
  split
  · dsimp only
    split
    · exact s.evaluateSample_steers
    · exact (s.evaluateSample_steers.trans .of_fields).trans (State.evaluateLane_steers _ x t)
  · exact .refl s

theorem State.convertStep_steers (t : Nat) (m : Motion) : s.Steers (s.convertStep x t m).1 := by
  unfold State.convertStep
  split
  · exact .refl s
  · split
    · exact s.removeCause_steers _ x
    · dsimp only
      split
      · exact s.occur_steers x _
      · exact (s.occur_steers x _).trans (State.addCause_steers _ _ _)

theorem State.occurLimit_steers : s.Steers (s.occurLimit x).1 := by
  rcases (s.occurLimit_spec x).2 with ⟨-, hmoves⟩ | ⟨-, hends⟩
  · exact .of_moves hmoves
  · exact .of_ends hends

theorem State.softStep_steers (t : Nat) (m : Motion) : s.Steers (s.softStep x t m).1 := by
  unfold State.softStep
  split
  · exact s.convertStep_steers x t m
  · split
    · dsimp only
      split
      · exact s.occurLimit_steers x
      · exact ((s.occurLimit_steers x).trans (State.addCause_steers _ _ _)).trans
          (State.convertStep_steers _ x t _)
    · exact (s.removeCause_steers _ x).trans (State.convertStep_steers _ x t m)

theorem State.commandedAt_moving {t : Nat} (h : (s.commandedAt x t).isSome = true) : ¬ s.seq.motion.quiet :=
  fun hrest => by
    rw [State.commandedAt_rest s x t hrest] at h
    cases h

/-- Steps 6 to 8 form a SETPOINT outside PARKED and ALARM alone: a state that is not one of them commands it,
and no step here leads to one (R119). -/
theorem State.commandStep_steers (t : Nat) (faulted : Bool) :
    s.Steers (s.commandStep x t faulted).1 ∧
      ((s.commandStep x t faulted).2.isSome = true → ¬ (s.commandStep x t faulted).1.seq.motion.quiet) := by
  unfold State.commandStep
  split
  · refine ⟨.refl s, fun h => s.commandedAt_moving x (t := t) ?_⟩
    simpa [State.commandAfterFault] using h
  · split
    · exact ⟨.refl s, nofun⟩
    · rename_i hm
      have hsteers := s.softStep_steers x t ‹Motion›
      exact ⟨hsteers, fun _ hrest => s.commandedAt_moving x (by rw [hm]; rfl) (hsteers.rest hrest).1⟩

/-- A SETPOINT placed outside PARKED and ALARM (R130). -/
theorem State.placeSetpoint_steers (tag : Byte) {p : Option Setpoint}
    (h : p.isSome = true → ¬ s.seq.motion.quiet) : s.Steers (s.placeSetpoint x tag p) := by
  cases p with
  | none => exact .refl s
  | some sp => exact ⟨id, fun hrest => absurd hrest (h rfl)⟩

theorem State.driveSteps_steers (tag : Byte) : s.Steers (s.driveSteps x tag).1 := by
  obtain ⟨hsteers, hmoving⟩ := State.commandStep_steers
    (s.runningSteps x (s.time.mount + (s.axis x).lead)).1 x (s.time.mount + (s.axis x).lead)
    (s.runningSteps x (s.time.mount + (s.axis x).lead)).2
  exact ((s.runningSteps_steers x _).trans hsteers).trans (State.placeSetpoint_steers _ x tag hmoving)

theorem State.settleTest_steers (hm : s.seq.motion = .settling) (err : Int) (braked : Bool) :
    s.Steers (s.settleTest x err braked) := by
  unfold State.settleTest
  split
  · exact .refl s
  · split
    · exact .of_fields
    · dsimp only
      split
      · refine .trans .of_fields (.of_moves (State.enter_moves _ _ (congrArg MotionState.composing hm) ?_))
        split <;> rfl
      · exact .of_fields

theorem State.trackTest_steers (err : Int) : s.Steers (s.trackTest x err) := by
  unfold State.trackTest
  split
  · dsimp only
    split
    · exact s.occur_steers x _
    · exact ((s.occur_steers x _).trans (State.addCause_steers _ .trackError x)).trans .of_fields
  · exact .refl s

theorem State.recoverTest_steers (err : Int) (braked : Bool) : s.Steers (s.recoverTest x err braked) := by
  unfold State.recoverTest
  split
  · exact .refl s
  · dsimp only
    split
    · split
      · exact .trans .of_fields (State.addCause_steers _ _ _)
      · exact .of_fields
    · split
      · exact .trans .of_fields (.of_moves (State.lowerCause_moves _ _ _))
      · exact .of_fields

theorem State.parkTest_complies : s.Complies s.parkTest := by
  unfold State.parkTest
  split
  · split
    · exact s.enterParked_complies s
    · exact .refl s
  all_goals exact .refl s

theorem State.errorTests_complies (err : Int) (braked : Bool) : s.Complies (s.errorTests x err braked) := by
  have hraised : s.Steers (s.raiseMaxError x err) := .of_fields
  unfold State.errorTests
  split
  case h_1 hm => exact (hraised.trans (State.settleTest_steers (s.raiseMaxError x err) x hm _ _)).complies
  case h_2 => exact (hraised.trans (State.trackTest_steers _ x err)).complies
  case h_3 =>
    dsimp only
    split
    · exact (hraised.trans (State.recoverTest_steers _ x _ _)).complies
    · exact hraised.complies
  case h_4 => exact s.parkTest_complies
  all_goals exact .refl s

theorem State.errorStep_complies (f : SampleFields) (hold : Bool) : s.Complies (s.errorStep x f hold) := by
  unfold State.errorStep
  split
  · exact .refl s
  · have hwritten : ∀ g : LatestSample → LatestSample, s.Complies (s.mapLatest x g) :=
      fun g => (State.Steers.of_fields (t := s.mapLatest x g)).complies
    dsimp only
    split
    · exact hwritten _
    · exact (hwritten _).trans (State.errorTests_complies _ x _ _)

theorem State.telemetryStep_steers : s.Steers (s.telemetryStep x) := by
  unfold State.telemetryStep State.copyTelemetry
  dsimp only
  repeat' split
  all_goals exact .of_fields

theorem State.takeSample_complies (tag : Byte) (f : SampleFields) : s.Complies (s.takeSample x tag f) := by
  have hrecorded : s.Complies (s.recordSample x f) := (State.Steers.of_fields (s := s)).complies
  have hdriven := (hrecorded.trans (State.checkDrive_complies _ x f)).trans
    (State.driveSteps_steers _ x tag).complies
  exact (hdriven.trans (State.errorStep_complies _ x f _)).trans (State.telemetryStep_steers _ x).complies

end

/-! ### The links and the clock -/

section
variable (s : State)

/-- A change of one axis port that fills no setpoint slot. -/
theorem State.mapPort_steers (x : Lane) {f : AxisPort → AxisPort}
    (hf : ∀ p, p.setpoint = none → (f p).setpoint = none) : s.Steers (s.mapPort x f) := by
  refine .of_slots fun y hy => ?_
  by_cases h : y = x
  · subst h
    rw [State.mapPort_self]
    exact hf _ hy
  · rwa [State.mapPort_other _ _ h]

theorem State.setReceiver_steers (p : Port) (q : RxState) : s.Steers (s.setReceiver p q) := by
  cases p with
  | site => exact .of_fields
  | axis x => exact s.mapPort_steers x (f := fun port => { port with rx := q }) fun _ => id

theorem State.countError_steers (p : Port) : s.Steers (s.countError p) := by
  cases p with
  | site => exact .of_fields
  | axis x =>
    exact s.mapPort_steers x (f := fun port => { port with linkErrors := raiseCount port.linkErrors }) fun _ => id

theorem State.proxyFrame_steers (x : Lane) (f : Frame) : s.Steers (s.proxyFrame x f) := by
  unfold State.proxyFrame
  split
  · exact .of_fields
  · split
    · exact .refl s
    · split
      · exact .refl s
      · split
        · exact .refl s
        · split
          · exact .of_fields
          · split
            · exact .of_fields
            · exact s.mapPort_steers x fun _ => id

theorem State.replyFrame_steers (x : Lane) (f : Frame) : s.Steers (s.replyFrame x f) := by
  unfold State.replyFrame
  repeat' split
  all_goals exact .of_fields

theorem State.sortSite_steers (f : Frame) : s.Steers (s.sortSite f) := by
  unfold State.sortSite
  split
  · split
    · unfold State.bufferRequest
      split <;> exact .of_fields
    · split
      · exact s.takeGuide_steers _ _
      · exact .refl s
  · split
    · exact s.proxyFrame_steers _ f
    · exact .refl s

theorem State.sortAxis_complies (x : Lane) (f : Frame) : s.Complies (s.sortAxis x f) := by
  unfold State.sortAxis
  split
  · split
    · split
      · exact s.takeSample_complies x _ _
      · exact .refl s
    · split
      · exact (s.replyFrame_steers x f).complies
      · exact .refl s
  · exact .refl s

theorem State.takeRx_complies (p : Port) (e : RxEvent) : s.Complies (State.takeRx p s e) := by
  cases e with
  | received f =>
    cases p with
    | site => exact (s.sortSite_steers f).complies
    | axis x => exact s.sortAxis_complies x f
  | discarded e => exact (s.countError_steers p).complies

theorem State.receiveLine_complies (p : Port) (input : List LineInput) :
    s.Complies (s.receiveLine p input) := by
  have hfold : ∀ (es : List RxEvent) (t : State), t.Complies (es.foldl (State.takeRx p) t) := by
    intro es
    induction es with
    | nil => exact State.Complies.refl
    | cons e es ih => exact fun t => (t.takeRx_complies p e).trans (ih _)
  exact (s.setReceiver_steers p _).complies.trans (hfold _ _)

theorem AxisPort.start_setpoint {p : AxisPort} (h : p.setpoint = none) : p.start.setpoint = none := by
  unfold AxisPort.start
  split
  · exact h
  · rfl
  · exact h
  · exact h

theorem State.startSite_steers : s.Steers s.startSite := by
  unfold State.startSite
  repeat' split
  all_goals exact .of_fields

theorem State.passTime_steers (d : Nat) : s.Steers (s.passTime d) := by
  obtain ⟨f, -, he⟩ := s.passTime_eq d
  rw [he]
  exact .of_fields

theorem State.handExpiries_steers : s.Steers s.handExpiries := by
  rw [State.handExpiries_eq]
  exact .of_fields

theorem State.setClock_steers (value : Nat) : s.Steers (s.setClock value) := by
  have hmoved : s.Steers
      (if s.time.mount ≤ value then s.passTime (value - s.time.mount) else s.turnBack value) := by
    split
    · exact s.passTime_steers _
    · exact .of_fields
  exact (hmoved.trans .of_fields).trans (State.handExpiries_steers _)

theorem State.afterClock_steers : s.Steers s.afterClock :=
  s.expireHanded_steers.trans (State.testActivation_steers _)

theorem State.pulseLoad_steers (value : Nat) : s.Steers (s.pulseLoad value) := by
  unfold State.pulseLoad
  dsimp only
  split
  · exact .of_fields
  · have hset := State.setClock_steers { s with time.load := none } value
    exact (((State.Steers.of_fields (s := s)).trans hset).trans .of_fields).trans (State.afterClock_steers _)

theorem State.tick_steers : s.Steers s.tick := by
  have hslots : ∀ x : Lane, (s.ports.get x).setpoint = none →
      ((s.ports.map AxisPort.tick).get x).setpoint = none := fun x hx => by rwa [Lanes.get_map]
  unfold State.tick
  dsimp only
  split
  · obtain ⟨f, -, he⟩ := s.passTime_eq 1
    rw [State.handExpiries_eq, he]
    exact .of_slots hslots
  · exact .of_slots hslots

end

/-! ### The bodies of the requests -/

section
variable (p : List Byte) (s : State)

theorem State.preempt_steers (r : TargetRecord) (cs : List Chain) : s.Steers (s.preempt r cs).1 := by
  unfold State.preempt
  split
  · exact .refl s
  · split
    · exact .refl s
    · dsimp only
      split
      · exact .refl s
      · exact State.takeSlot_steers _ _ _ _

theorem submitTargetBody_steers : s.Steers (submitTargetBody p s).1 := by
  unfold submitTargetBody
  split
  · exact .refl s
  · split
    · exact .refl s
    · split
      · exact .refl s
      · exact .trans (t := s.admitRecord _ _) .of_fields (State.retestIfHeadChanged_steers _ s)

theorem submitOpportunityBody_steers : s.Steers (submitOpportunityBody p s).1 := by
  unfold submitOpportunityBody State.queueFirst
  repeat' split
  any_goals exact .refl s
  · exact s.preempt_steers _ _
  · exact .trans (t := State.setQueue { s with chains := s.chains ++ _ } (_ :: s.seq.queue)) .of_fields
      (State.retestIfHeadChanged_steers _ s)

theorem withdrawTargetBody_steers : s.Steers (withdrawTargetBody p s).1 := by
  unfold withdrawTargetBody State.withdraw
  split
  · exact .refl s
  · split
    · exact s.endActive_steers _ _ _
    · exact .of_fields
    · exact .trans (t := s.departQueued _ _ _) .of_fields (State.retestIfHeadChanged_steers _ s)
    · exact .refl s

theorem flushQueueBody_steers : s.Steers (flushQueueBody p s).1 := by
  unfold flushQueueBody
  split
  · exact .refl s
  · exact s.departAllQueued_steers _ _ _

theorem runQueueBody_steers : s.Steers (runQueueBody p s).1 := by
  unfold runQueueBody
  split
  · exact .refl s
  · split
    · exact .refl s
    · exact .trans (t := { s with seq.mode := .run }) .of_fields (State.testActivation_steers _)

theorem adjustDwellBody_steers : s.Steers (adjustDwellBody p s).1 := by
  unfold adjustDwellBody State.adjustDwell
  split
  · exact .refl s
  · split
    · dsimp only [accept]
      split
      · exact s.endActive_steers _ _ _
      · exact .of_fields
    · dsimp only [accept]
      split <;> exact .of_fields
    · split <;> exact .of_fields
    · exact .refl s

theorem appendSegmentsBody_steers : s.Steers (appendSegmentsBody p s).1 := by
  unfold appendSegmentsBody State.appendTo
  split
  · exact .refl s
  · split
    · exact .refl s
    · split
      · exact .refl s
      · split
        · exact .refl s
        · dsimp only [accept]
          split
          · exact .trans (t := s.storeSegments _ _ _) .of_fields (State.testActivation_steers _)
          · exact .of_fields

theorem closeChainBody_steers : s.Steers (closeChainBody p s).1 := by
  unfold closeChainBody State.closeChain
  repeat' split
  all_goals exact .of_fields

theorem truncateChainBody_steers : s.Steers (truncateChainBody p s).1 := by
  unfold truncateChainBody State.truncateChain
  repeat' split
  all_goals exact .of_fields

theorem unparkBody_steers : s.Steers (unparkBody p s).1 := by
  unfold unparkBody
  split
  · exact .refl s
  · split
    · exact .refl s
    · split
      · exact .refl s
      · exact State.enterIdle_steers _ _ _

theorem clearAlarmBody_steers : s.Steers (clearAlarmBody p s).1 := by
  unfold clearAlarmBody
  split
  · exact .refl s
  · split
    · exact .refl s
    · split
      · exact .refl s
      · exact State.enterIdle_steers _ _ _

theorem parkBody_steers : s.Steers (parkBody p s).1 := by
  unfold parkBody
  split
  · exact .refl s
  · split
    · exact .refl s
    · show s.Steers s.parkNow
      unfold State.parkNow
      split
      case h_5 => exact s.startPark_steers _ _
      case h_6 | h_7 | h_8 | h_9 => exact .of_fields
      all_goals exact (s.haltRun_steers s .park).trans .of_fields

theorem stopBody_steers : s.Steers (stopBody p s).1 := by
  unfold stopBody
  split
  · exact .refl s
  · split
    · exact .refl s
    · show s.Steers s.stopNow
      unfold State.stopNow
      split
      case h_5 => exact s.startStop_steers _ _
      case h_6 | h_7 | h_8 | h_9 => exact .refl s
      all_goals exact s.haltRun_steers s .stop

theorem State.setStack_steers (old new : OffsetStack) : s.Steers (s.setStack old new) := by
  unfold State.setStack
  dsimp only
  split
  · exact .of_fields
  · exact .trans .of_fields (.of_moves (State.offsetChanged_moves _))

theorem State.stackFault_steers (i : Indicator) : s.Steers (s.stackFault i).1 :=
  .trans .of_fields (State.raiseCondition_steers _ _ _ _)

theorem pushOffsetBody_steers : s.Steers (pushOffsetBody p s).1 := by
  unfold pushOffsetBody
  split
  · exact .refl s
  · split
    · exact .refl s
    · dsimp only
      split
      · exact s.stackFault_steers _
      · split
        · exact s.setStack_steers _ _
        · exact .refl s

theorem popOffsetBody_steers : s.Steers (popOffsetBody p s).1 := by
  unfold popOffsetBody
  split
  · exact .refl s
  · split
    · exact .refl s
    · dsimp only
      split
      · exact s.stackFault_steers _
      · exact s.setStack_steers _ _

theorem replaceTopOffsetBody_steers : s.Steers (replaceTopOffsetBody p s).1 := by
  unfold replaceTopOffsetBody
  split
  · exact .refl s
  · split
    · exact .refl s
    · dsimp only
      split
      · exact s.stackFault_steers _
      · split
        · exact s.setStack_steers _ _
        · exact .refl s

theorem clearOffsetsBody_steers : s.Steers (clearOffsetsBody p s).1 := by
  unfold clearOffsetsBody
  split
  · exact .refl s
  · split
    · exact .refl s
    · exact s.setStack_steers _ _

theorem startGuidingBody_steers : s.Steers (startGuidingBody p s).1 := by
  unfold startGuidingBody
  split
  · exact .refl s
  · split
    · exact .refl s
    · split
      · exact .refl s
      · split
        · exact .refl s
        · exact s.startGuide_steers _

theorem stopGuidingBody_steers : s.Steers (stopGuidingBody p s).1 := by
  unfold stopGuidingBody
  split
  · exact .refl s
  · split
    · exact .refl s
    · exact s.stopGuide_steers _ _

theorem setTimeBody_steers : s.Steers (setTimeBody p s).1 := by
  unfold setTimeBody
  split
  · exact .refl s
  · dsimp only
    split
    · exact .refl s
    · exact ((s.setClock_steers _).trans .of_fields).trans (State.afterClock_steers _)

/-- A soft reset is taken in PARKED, IDLE and ALARM, and leaves no plan and no SETPOINT (R187). -/
theorem resetControllerBody_steers : s.Steers (resetControllerBody p s).1 := by
  unfold resetControllerBody
  split
  · exact .refl s
  · split
    · exact .refl s
    · rename_i hresting
      refine ⟨fun _ => ?_, fun hrest => ⟨hrest, fun x _ => ?_⟩⟩
      · show none = s.seq.motion.planned?
        revert hresting
        cases s.seq.motion <;> simp [MotionState.resting, MotionState.planned?]
      · exact congrArg AxisPort.setpoint (Lanes.get_map _ _ x)

theorem holdQueueBody_steers : s.Steers (holdQueueBody p s).1 := by
  unfold holdQueueBody
  repeat' split
  all_goals exact .of_fields

theorem clearConditionsBody_steers : s.Steers (clearConditionsBody p s).1 := by
  unfold clearConditionsBody
  repeat' split
  all_goals exact .of_fields

theorem writeTermBody_steers : s.Steers (writeTermBody p s).1 := by
  unfold writeTermBody
  dsimp only
  repeat' split
  all_goals exact .of_fields

theorem deleteTermBody_steers : s.Steers (deleteTermBody p s).1 := by
  unfold deleteTermBody
  dsimp only
  repeat' split
  all_goals exact .of_fields

theorem commitTermsBody_steers : s.Steers (commitTermsBody p s).1 := by
  unfold commitTermsBody
  repeat' split
  all_goals exact .of_fields

theorem configureGuideBody_steers : s.Steers (configureGuideBody p s).1 := by
  unfold configureGuideBody
  repeat' split
  all_goals exact .of_fields

theorem setMasksBody_steers : s.Steers (setMasksBody p s).1 := by
  unfold setMasksBody
  repeat' split
  all_goals exact .of_fields

theorem loadAxesBody_steers : s.Steers (loadAxesBody p s).1 := by
  unfold loadAxesBody
  repeat' split
  all_goals exact .of_fields

theorem loadLimitsBody_steers : s.Steers (loadLimitsBody p s).1 := by
  unfold loadLimitsBody
  dsimp only
  repeat' split
  all_goals exact .of_fields

theorem lockLimitsBody_steers : s.Steers (lockLimitsBody p s).1 := by
  unfold lockLimitsBody
  repeat' split
  all_goals exact .of_fields

theorem loadForwardingBody_steers : s.Steers (loadForwardingBody p s).1 := by
  unfold loadForwardingBody
  dsimp only
  repeat' split
  all_goals exact .of_fields

theorem setReportDestinationBody_steers : s.Steers (setReportDestinationBody p s).1 := by
  unfold setReportDestinationBody
  repeat' split
  all_goals exact .of_fields

theorem enableSupervisionBody_steers : s.Steers (enableSupervisionBody p s).1 := by
  unfold enableSupervisionBody
  repeat' split
  all_goals exact .of_fields

theorem setTimeAtPulseBody_steers : s.Steers (setTimeAtPulseBody p s).1 := by
  unfold setTimeAtPulseBody
  repeat' split
  all_goals exact .of_fields

theorem readTimeBody_steers : s.Steers (readTimeBody p s).1 := by
  unfold readTimeBody
  repeat' split
  all_goals exact .of_fields

theorem readStatusBody_steers : s.Steers (readStatusBody p s).1 := by
  unfold readStatusBody
  split
  · exact .refl s
  · refine .of_slots fun x hx => ?_
    exact (congrArg AxisPort.setpoint (Lanes.get_map _ _ x)).trans hx

end

/-! ### Every command and every microsecond -/

section
variable {s : State}

theorem takeRequest_complies {cmd : Instr} {body : List Byte → State → State × Reply}
    (hbody : ∀ (p : List Byte) (t : State), t.Steers (body p t).1) : s.Complies (takeRequest cmd body s) :=
  (takeRequest_of_body (P := s.Steers) (fun _ _ ht => ht.trans .of_fields)
    (fun p t ht => ht.trans (hbody p t)) (.refl s)).complies

/-- A request whose body reads and changes nothing. -/
theorem takeRequest_complies_of_state {cmd : Instr} {body : List Byte → State → State × Reply}
    (hbody : ∀ p t, (body p t).1 = t) : s.Complies (takeRequest cmd body s) :=
  takeRequest_complies fun p t => (hbody p t).symm ▸ .refl t

/-- A lapse ends the active target by the grace rule, or begins the park slew (R75, R76). -/
theorem State.lapse_steers (s : State) : s.Steers s.lapse := by
  have heffect : ∀ t : State, t.Steers t.lapseEffect := by
    intro t
    unfold State.lapseEffect
    split
    case h_5 => exact t.startPark_steers _ _
    case h_6 | h_7 | h_8 | h_9 => exact .of_fields
    all_goals
      dsimp only
      split
      · exact State.endActive_steers _ _ _ _
      · exact .of_fields
  exact .trans .of_fields (heffect _)

theorem State.completeStop_steers (s : State) (p : StopPlan) : s.Steers (s.completeStop p) := by
  unfold State.completeStop
  split
  · exact s.startPark_steers _ _
  · exact s.enterIdle_steers _ _

/-- The end of a slew leaves SETTLING and no plan (R55). -/
theorem State.endSlew_steers (s : State) :
    s.Steers (State.enter { s with planner.current := .none } .settling) := by
  refine .of_planned ?_ ?_
  · rw [State.planMatches, State.enter_motion, State.enter_current]
    rfl
  · rw [State.enter_motion]
    nofun

theorem State.pinReset_complies (s : State) (straps : BitVec 3) (permit : Bool) :
    s.Complies (s.pinReset straps permit) :=
  .of_sound rfl fun _ x => by cases x <;> rfl

theorem exec_complies (i : Instr) (s : State) : ∃ t, exec i s = .next t ∧ s.Complies t := by
  cases i with
  | submitTarget => exact ⟨_, rfl, takeRequest_complies submitTargetBody_steers⟩
  | submitOpportunity => exact ⟨_, rfl, takeRequest_complies submitOpportunityBody_steers⟩
  | withdrawTarget => exact ⟨_, rfl, takeRequest_complies withdrawTargetBody_steers⟩
  | flushQueue => exact ⟨_, rfl, takeRequest_complies flushQueueBody_steers⟩
  | runQueue => exact ⟨_, rfl, takeRequest_complies runQueueBody_steers⟩
  | holdQueue => exact ⟨_, rfl, takeRequest_complies holdQueueBody_steers⟩
  | adjustDwell => exact ⟨_, rfl, takeRequest_complies adjustDwellBody_steers⟩
  | appendSegments => exact ⟨_, rfl, takeRequest_complies appendSegmentsBody_steers⟩
  | closeChain => exact ⟨_, rfl, takeRequest_complies closeChainBody_steers⟩
  | truncateChain => exact ⟨_, rfl, takeRequest_complies truncateChainBody_steers⟩
  | unpark => exact ⟨_, rfl, takeRequest_complies unparkBody_steers⟩
  | park => exact ⟨_, rfl, takeRequest_complies parkBody_steers⟩
  | stop => exact ⟨_, rfl, takeRequest_complies stopBody_steers⟩
  | clearAlarm => exact ⟨_, rfl, takeRequest_complies clearAlarmBody_steers⟩
  | writeTerm => exact ⟨_, rfl, takeRequest_complies writeTermBody_steers⟩
  | deleteTerm => exact ⟨_, rfl, takeRequest_complies deleteTermBody_steers⟩
  | commitTerms => exact ⟨_, rfl, takeRequest_complies commitTermsBody_steers⟩
  | pushOffset => exact ⟨_, rfl, takeRequest_complies pushOffsetBody_steers⟩
  | popOffset => exact ⟨_, rfl, takeRequest_complies popOffsetBody_steers⟩
  | replaceTopOffset => exact ⟨_, rfl, takeRequest_complies replaceTopOffsetBody_steers⟩
  | clearOffsets => exact ⟨_, rfl, takeRequest_complies clearOffsetsBody_steers⟩
  | configureGuide => exact ⟨_, rfl, takeRequest_complies configureGuideBody_steers⟩
  | startGuiding => exact ⟨_, rfl, takeRequest_complies startGuidingBody_steers⟩
  | stopGuiding => exact ⟨_, rfl, takeRequest_complies stopGuidingBody_steers⟩
  | setMasks => exact ⟨_, rfl, takeRequest_complies setMasksBody_steers⟩
  | clearConditions => exact ⟨_, rfl, takeRequest_complies clearConditionsBody_steers⟩
  | loadAxes => exact ⟨_, rfl, takeRequest_complies loadAxesBody_steers⟩
  | loadLimits => exact ⟨_, rfl, takeRequest_complies loadLimitsBody_steers⟩
  | lockLimits => exact ⟨_, rfl, takeRequest_complies lockLimitsBody_steers⟩
  | loadForwarding => exact ⟨_, rfl, takeRequest_complies loadForwardingBody_steers⟩
  | setReportDestination => exact ⟨_, rfl, takeRequest_complies setReportDestinationBody_steers⟩
  | enableSupervision => exact ⟨_, rfl, takeRequest_complies enableSupervisionBody_steers⟩
  | setTime => exact ⟨_, rfl, takeRequest_complies setTimeBody_steers⟩
  | setTimeAtPulse => exact ⟨_, rfl, takeRequest_complies setTimeAtPulseBody_steers⟩
  | readTime => exact ⟨_, rfl, takeRequest_complies readTimeBody_steers⟩
  | readStatus => exact ⟨_, rfl, takeRequest_complies readStatusBody_steers⟩
  | resetController => exact ⟨_, rfl, takeRequest_complies resetControllerBody_steers⟩
  | readTarget => exact ⟨_, rfl, takeRequest_complies_of_state readTargetBody_state⟩
  | readOutcome => exact ⟨_, rfl, takeRequest_complies_of_state readOutcomeBody_state⟩
  | readCaptures => exact ⟨_, rfl, takeRequest_complies_of_state readCapturesBody_state⟩
  | readChain => exact ⟨_, rfl, takeRequest_complies_of_state readChainBody_state⟩
  | readTerms => exact ⟨_, rfl, takeRequest_complies_of_state readTermsBody_state⟩
  | readOffsets => exact ⟨_, rfl, takeRequest_complies_of_state readOffsetsBody_state⟩
  | readConditions => exact ⟨_, rfl, takeRequest_complies_of_state readConditionsBody_state⟩
  | peekTime => exact ⟨_, rfl, takeRequest_complies_of_state peekTimeBody_state⟩
  | unknownRequest => exact ⟨_, rfl, takeRequest_complies_of_state fun _ _ => rfl⟩
  | requestFrameReception f | guideFrame f | proxyServiceFrame f =>
    exact ⟨_, rfl, s.receiveLine_complies .site (frameLine f)⟩
  | sample x f | serviceReply x f => exact ⟨_, rfl, s.receiveLine_complies (.axis x) (frameLine f)⟩
  | linkError p input => exact ⟨_, rfl, s.receiveLine_complies p input⟩
  | waitIdleReturnToHunt p =>
    refine ⟨_, rfl, ?_⟩
    split
    · exact s.receiveLine_complies _ _
    · exact .refl s
  | siteTransmitStart =>
    refine ⟨_, rfl, ?_⟩
    split
    · exact s.startSite_steers.complies
    · exact .refl s
  | axisTransmitStart x =>
    refine ⟨_, rfl, ?_⟩
    split
    · exact (s.mapPort_steers x fun _ => AxisPort.start_setpoint).complies
    · exact .refl s
  | frameTransmissionEnd p =>
    refine ⟨_, rfl, State.Steers.complies ?_⟩
    cases p with
    | site => exact .of_fields
    | axis x => exact s.mapPort_steers x fun _ => id
  | pinReset straps permit =>
    refine ⟨_, rfl, ?_⟩
    split
    · exact s.pinReset_complies _ _
    · exact (s.pinReset_complies _ _).trans (State.raiseAlarm_complies _ _ _)
  | permitLost =>
    exact ⟨_, rfl, (State.Steers.of_fields (t := { s with permit := false })).complies.trans
      (State.raiseAlarm_complies _ _ _)⟩
  | permitRise => exact ⟨_, rfl, (State.Steers.of_fields (s := s)).complies⟩
  | encoderSilent x =>
    refine ⟨_, rfl, ?_⟩
    split
    · exact s.raiseAlarm_complies _ _
    · exact .refl s
  | pulseEdge =>
    have hcaptured : s.Steers s.capturePulse := .of_fields
    refine ⟨_, rfl, State.Steers.complies ?_⟩
    split
    · exact hcaptured
    · exact hcaptured.trans (State.pulseLoad_steers _ _)
  | shutterEdge e =>
    have hcaptured : s.Steers (s.captureEdge e) := .of_fields
    refine ⟨_, rfl, State.Steers.complies ?_⟩
    split
    · exact .of_fields
    · dsimp only
      split
      · exact hcaptured.trans (State.raiseCondition_steers _ _ _ _)
      · exact hcaptured
  | supervisionLapse =>
    refine ⟨_, rfl, State.Steers.complies ?_⟩
    split
    · exact s.lapse_steers
    · exact .refl s
  | graceExpiry | guideLost | dwellCompletion =>
    refine ⟨_, rfl, State.Steers.complies ?_⟩
    split
    · exact s.endActive_steers _ _ _
    · exact .refl s
  | guideWatchExpiry =>
    refine ⟨_, rfl, State.Steers.complies ?_⟩
    split
    · exact s.expireGuideWatch_steers
    · exact .refl s
  | slewCompletion =>
    refine ⟨_, rfl, State.Steers.complies ?_⟩
    split
    · exact s.endSlew_steers
    · exact .refl s
  | stopCompletion =>
    refine ⟨_, rfl, State.Steers.complies ?_⟩
    split
    · exact s.completeStop_steers _
    · exact .refl s
  | windowExpiry id =>
    refine ⟨_, rfl, State.Steers.complies ?_⟩
    split
    · exact s.expireHanded_steers.trans (State.retestIfHeadChanged_steers _ _)
    · exact .refl s
  | startTimeReached =>
    refine ⟨_, rfl, State.Steers.complies ?_⟩
    unfold State.takeStart
    split
    · exact .trans (t := { s with seq.startHanded := false }) .of_fields (State.testActivation_steers _)
    · exact .refl s

theorem step_complies {t : State} (hstep : step s = .next t) : s.Complies t := by
  rcases step_command_or_tick hstep with ⟨i, q, he⟩ | rfl
  · have hqueued : s.Complies { s with pending := q } := (State.Steers.of_fields (s := s)).complies
    exact exec_of_next (P := s.Complies)
      (have ⟨u, hu, hcomplies⟩ := exec_complies i { s with pending := q }; ⟨u, hu, hqueued.trans hcomplies⟩) he
  · exact s.tick_steers.complies

end

/-- Settles O9: every step keeps each of the two by itself, whether or not the slot matches the motion state. -/
theorem planAndSetpointsMatchMotion : Obligations.PlanAndSetpointsMatchMotion :=
  ⟨fun _ _ _ h hstep => (step_complies hstep).plan h, fun _ _ _ h hstep => (step_complies hstep).rest h⟩

/-! ## The tables and the lock (R79, R80, R83) -/

theorem MotionState.resting_iff (m : MotionState) : m.resting = true ↔ m ∈ [.parked, .idle, .alarm] := by
  cases m <;> decide

theorem parkInside_iff (axes : Lanes AxisRecord) (l : Lanes AxisLimits) : parkInside axes l = true ↔
    ∀ x, (l.get x).softMin ≤ (axes.get x).parkAngle ∧ (axes.get x).parkAngle ≤ (l.get x).softMax := by
  simp only [parkInside, allLanes_iff, Bool.and_eq_true, decide_eq_true_eq]

theorem holdInside_iff (hold : Lanes Int) (l : Lanes AxisLimits) : holdInside hold l = true ↔
    ∀ x, 256 * (l.get x).softMin ≤ hold.get x ∧ hold.get x ≤ 256 * (l.get x).softMax := by
  simp only [holdInside, allLanes_iff, Bool.and_eq_true, decide_eq_true_eq]
  rfl

theorem limitsForm_iff (x : Lane) (l : AxisLimits) : limitsForm x l = true ↔
    l.hardMin < l.softMin ∧ l.softMin < l.softMax ∧ l.softMax < l.hardMax ∧
      -(if x = .az then 972000000 else 1296000000) ≤ l.hardMin ∧
      l.hardMax ≤ (if x = .az then 972000000 else 1296000000) := by
  cases x <;> simp [limitsForm, and_assoc]

/-- The limit table that 48 parameter bytes give, 16 bytes for each axis (R79). -/
def limitTableAt (p : List Byte) : Lanes AxisLimits := ⟨limitsAt p 0, limitsAt p 16, limitsAt p 32⟩

theorem limitTableAt_eq {p : List Byte} {l : Lanes AxisLimits}
    (h : ∀ x, l.get x =
      { hardMin := intAt p (16 * laneCode x) 4, softMin := intAt p (16 * laneCode x + 4) 4
        softMax := intAt p (16 * laneCode x + 8) 4, hardMax := intAt p (16 * laneCode x + 12) 4 }) :
    limitTableAt p = l := by
  obtain ⟨az, el, rot⟩ := l
  obtain ⟨haz, hel, hrot⟩ := Lane.forall_iff.mp h
  exact (congr (congrArg₂ Lanes.mk haz hel) hrot).symm

section
variable {s : State} {p : List Byte}

theorem loadAxesBody_moving (hl : p.length = 161) (hm : s.seq.motion ∉ [.parked, .idle, .alarm]) :
    loadAxesBody p s = refuse s .wrongState := by
  rw [← MotionState.resting_iff, Bool.not_eq_true] at hm
  rw [loadAxesBody, if_neg (not_not.mpr hl), if_pos hm]

theorem loadAxesBody_of_valid {axes : Lanes AxisRecord} {g : Globals} (hl : p.length = 161)
    (hm : s.seq.motion ∈ [.parked, .idle, .alarm]) (htable : axisTableOf p = some (axes, g))
    (hpark : ∀ l, s.planner.limits = some l → parkInside axes l = true) :
    loadAxesBody p s = accept (s.setAxes axes g) [] := by
  have hinside : ¬ s.planner.limits.any (fun l => !parkInside axes l) = true := by
    cases hlimits : s.planner.limits with
    | none => exact Bool.false_ne_true
    | some l => simp [hpark l hlimits]
  rw [← MotionState.resting_iff] at hm
  rw [loadAxesBody, if_neg (not_not.mpr hl), if_neg (by rw [hm]; decide), htable]
  exact if_neg hinside

theorem loadLimitsBody_locked (hl : p.length = 48) (hlock : s.planner.limitsLocked = true) :
    loadLimitsBody p s = refuse s .locked := by
  rw [loadLimitsBody, if_neg (not_not.mpr hl), if_pos hlock]

theorem loadLimitsBody_moving (hl : p.length = 48) (hlock : s.planner.limitsLocked = false)
    (hm : s.seq.motion ∉ [.parked, .idle, .alarm]) : loadLimitsBody p s = refuse s .wrongState := by
  rw [← MotionState.resting_iff, Bool.not_eq_true] at hm
  rw [loadLimitsBody, if_neg (not_not.mpr hl), if_neg (Bool.eq_false_iff.mp hlock), if_pos hm]

theorem loadLimitsBody_of_valid (hl : p.length = 48) (hlock : s.planner.limitsLocked = false)
    (hm : s.seq.motion ∈ [.parked, .idle, .alarm])
    (hform : ∀ x, limitsForm x ((limitTableAt p).get x) = true)
    (hpark : ∀ axes, s.planner.axes = some axes → parkInside axes (limitTableAt p) = true)
    (hhold : s.seq.motion = .idle → holdInside s.seq.hold (limitTableAt p) = true) :
    loadLimitsBody p s = accept { s with planner.limits := some (limitTableAt p) } [] := by
  have hresting : ¬ s.seq.motion.resting = false := by rw [(MotionState.resting_iff _).mpr hm]; decide
  have hforms : ¬ allLanes.all (fun x => limitsForm x ((limitTableAt p).get x)) = false := by
    rw [(allLanes_iff _).mpr hform]; decide
  have hinside : ¬ s.planner.axes.any (fun a => !parkInside a (limitTableAt p)) = true := by
    cases haxes : s.planner.axes with
    | none => exact Bool.false_ne_true
    | some axes => simp [hpark axes haxes]
  have hheld : ¬ (s.seq.motion = .idle ∧ holdInside s.seq.hold (limitTableAt p) = false) :=
    fun ⟨hidle, hout⟩ => Bool.false_ne_true (hout.symm.trans (hhold hidle))
  exact (if_neg (not_not.mpr hl)).trans <| (if_neg (Bool.eq_false_iff.mp hlock)).trans <|
    (if_neg hresting).trans <| (if_neg hforms).trans <| (if_neg hinside).trans (if_neg hheld)

end

/-- Settles O41: a load passes its checks in their order, and in a moving state it meets the one for the motion
state. -/
theorem loadsReplaceTables : Obligations.LoadsReplaceTables := by
  intro s r rest p
  let taken : State := { s with site.requests := rest }
  refine ⟨fun axes g h hl hm htable hpark => ?_, fun l h hl hlock hm hbytes hform hpark hhold => ?_,
    fun hm hlock => ⟨fun h hl => ?_, fun h hl => ?_⟩⟩
  · exact exec_answers (u := s.setAxes axes g) h rfl rfl
      (loadAxesBody_of_valid (s := taken) hl hm htable fun l hlimits =>
        (parkInside_iff axes l).mpr (hpark l hlimits))
  · obtain rfl := limitTableAt_eq hbytes
    exact exec_answers (u := { s with planner.limits := some (limitTableAt p) }) h rfl rfl
      (loadLimitsBody_of_valid (s := taken) hl hlock hm (fun x => (limitsForm_iff x _).mpr (hform x))
        (fun axes haxes => (parkInside_iff axes _).mpr (hpark axes haxes))
        fun hidle => (holdInside_iff _ _).mpr (hhold hidle))
  · exact exec_answers h rfl rfl (loadAxesBody_moving (s := taken) hl hm)
  · exact exec_answers h rfl rfl (loadLimitsBody_moving (s := taken) hl hlock hm)

theorem lockLimitsBody_refused (s : State) {p : List Byte} (h : p ≠ []) :
    lockLimitsBody p s = refuse s .badParam := if_pos h

theorem lockLimitsBody_unloaded {s : State} (h : s.planner.limits = none) :
    lockLimitsBody [] s = refuse s .notReady := by
  simp [lockLimitsBody, h]

theorem lockLimitsBody_loaded {s : State} (h : s.planner.limits ≠ none) :
    lockLimitsBody [] s = accept { s with planner.limitsLocked := true } [] := by
  simp [lockLimitsBody, h]

/-- A pin reset leaves no lock, also where the alarm of a low PERMIT follows it (R80, R170). -/
theorem exec_pinReset_unlocked (straps : BitVec 3) (permit : Bool) (s : State) :
    ∃ t : State, exec (.pinReset straps permit) s = .next t ∧ t.planner.limitsLocked = false := by
  obtain ⟨hhigh, t, hlow, -, -, -, -, -, -, -, -, -, hplanner⟩ := pinResetRestoresResetState straps s
  cases permit with
  | true => exact ⟨_, hhigh, rfl⟩
  | false => exact ⟨t, hlow, congrArg SlewPlanner.limitsLocked hplanner⟩

theorem resetControllerBody_tables (p : List Byte) (s : State) :
    (resetControllerBody p s).1.planner.limitsLocked = s.planner.limitsLocked ∧
      (resetControllerBody p s).1.planner.limits = s.planner.limits := by
  unfold resetControllerBody
  split
  · exact ⟨rfl, rfl⟩
  · split <;> exact ⟨rfl, rfl⟩

/-- Settles O42: the lock is looked at behind the length alone, and only a pin reset takes it away. -/
theorem lockLimitsLocks : Obligations.LockLimitsLocks := by
  intro s r rest p
  let taken : State := { s with site.requests := rest }
  have hset : s.asks r rest 0x42 [] → s.planner.limits ≠ none → exec .lockLimits s = .next
      (({ s with planner.limitsLocked := true } : State).answered r rest 0x42 (okReply [])) :=
    fun h hloaded => exec_answers (u := { s with planner.limitsLocked := true }) h rfl rfl
      (lockLimitsBody_loaded (s := taken) hloaded)
  refine ⟨fun h hp => ?_, fun h hnone => ?_, hset, fun hlock h hloaded => ?_, fun hlock h hl => ?_,
    fun straps permit => exec_pinReset_unlocked straps permit s, fun h => ⟨_, rfl, ?_⟩,
    fun hr hd hp => ?_⟩
  · exact exec_answers h rfl rfl (lockLimitsBody_refused taken hp)
  · exact exec_answers h rfl rfl (lockLimitsBody_unloaded (s := taken) hnone)
  · rw [hset h hloaded, ← hlock]
  · exact exec_answers h rfl rfl (loadLimitsBody_locked (s := taken) hl hlock)
  · rw [takeRequest_asks (cmd := .resetController) h rfl]
    exact resetControllerBody_tables [] taken
  · exact congrArg Host.Outcome.next (takeRequest_discards hr hd (by rw [hp]; rfl) rfl)

end Sys2Proof.Machine

/-! # Pointing terms and the offset stack: obligations O12, O15, O32, O34, O35 -/

namespace Sys2Proof.Machine

set_option Elab.async false

/-! ## What every operation carries on (R105, R173)

O12 reads the offset stacks in the active slot and on the shelf, and O15 the request buffer and the response
queue. Nearly every operation carries all of them: no stack comes out of its bounds, and no request or response
comes or goes. The exceptions are the links, which bring requests and send responses, the taking of a request
itself, and the two resets. -/

/-- `State.stacksKept` place by place. -/
theorem State.stacksKept_iff (s : State) : s.stacksKept ↔
    (∀ a ∈ s.seq.active, a.ctx.stack.kept) ∧ ∀ e ∈ s.seq.shelf, e.ctx.stack.kept := by
  simp [State.stacksKept, State.contexts, or_imp, forall_and]

/-- The stacks stay in their bounds, and the request buffer and the response queue are as they were. -/
structure State.Carries (s t : State) : Prop where
  offsets : s.stacksKept → t.stacksKept
  requests : t.site.requests = s.site.requests
  responses : t.site.responses = s.site.responses

section
variable {s t u : State}

theorem State.Carries.refl (s : State) : s.Carries s := ⟨id, rfl, rfl⟩

theorem State.Carries.trans (h : s.Carries t) (k : t.Carries u) : s.Carries u :=
  ⟨k.offsets ∘ h.offsets, k.requests.trans h.requests, k.responses.trans h.responses⟩

/-- Every stack in a place was in that place before. -/
theorem State.Carries.of_places
    (active : ∀ a ∈ t.seq.active, ∃ b ∈ s.seq.active, b.ctx.stack = a.ctx.stack)
    (shelf : ∀ e ∈ t.seq.shelf, ∃ d ∈ s.seq.shelf, d.ctx.stack = e.ctx.stack)
    (requests : t.site.requests = s.site.requests := by rfl)
    (responses : t.site.responses = s.site.responses := by rfl) : s.Carries t where
  offsets h := by
    obtain ⟨hactive, hshelf⟩ := s.stacksKept_iff.mp h
    refine t.stacksKept_iff.mpr ⟨fun a ha => ?_, fun e he => ?_⟩
    · obtain ⟨b, hb, heq⟩ := active a ha
      exact heq ▸ hactive b hb
    · obtain ⟨d, hd, heq⟩ := shelf e he
      exact heq ▸ hshelf d hd
  requests := requests
  responses := responses

/-- The slot emptied or left, and the shelf with no new entry. -/
theorem State.Carries.of_sublist (active : t.seq.active = none ∨ t.seq.active = s.seq.active)
    (shelf : t.seq.shelf.Sublist s.seq.shelf)
    (requests : t.site.requests = s.site.requests := by rfl)
    (responses : t.site.responses = s.site.responses := by rfl) : s.Carries t :=
  .of_places (fun a ha => by
      rcases active with h | h <;> rw [h] at ha
      · cases ha
      · exact ⟨a, ha, rfl⟩)
    (fun e he => ⟨e, shelf.mem he, rfl⟩) requests responses

/-- An operation that leaves the slot, the shelf and the two queues alone. -/
theorem State.Carries.of_fields (active : t.seq.active = s.seq.active := by rfl)
    (shelf : t.seq.shelf = s.seq.shelf := by rfl)
    (requests : t.site.requests = s.site.requests := by rfl)
    (responses : t.site.responses = s.site.responses := by rfl) : s.Carries t :=
  .of_sublist (.inr active) (shelf ▸ .refl _) requests responses

/-- The running target changed, its stack kept. -/
theorem State.Carries.of_running {f : Running → Running} (hf : ∀ a, (f a).ctx.stack = a.ctx.stack)
    (active : t.seq.active = s.seq.active.map f := by rfl) (shelf : t.seq.shelf = s.seq.shelf := by rfl)
    (requests : t.site.requests = s.site.requests := by rfl)
    (responses : t.site.responses = s.site.responses := by rfl) : s.Carries t :=
  .of_places (fun a ha => by
      rw [active] at ha
      obtain ⟨b, hb, rfl⟩ := Option.mem_map.mp ha
      exact ⟨b, hb, (hf b).symm⟩)
    (fun e he => ⟨e, shelf ▸ he, rfl⟩) requests responses

theorem Running.keeps.stack {f : Running → Running} (hf : Running.keeps f) (a : Running) :
    (f a).ctx.stack = a.ctx.stack := (hf a).2.2.2

end

/-! ### The stack itself (R105, R107 to R109) -/

section
variable {st st' : OffsetStack}

/-- A lower top gives no offset that was not within the bound before (R108, R109). -/
theorem OffsetStack.kept.lower (h : st.kept) {top : Nat} (ht : top ≤ st.top) :
    OffsetStack.kept { st with top } := by
  obtain ⟨hlength, htop, hrange⟩ := h
  exact ⟨hlength, ht.trans htop, fun i hi x => hrange i (hi.trans ht) x⟩

/-- A changed top entry, where the effective offset that it comes to lies within the bound, and the entries below
it are as they were. -/
theorem OffsetStack.kept.change (h : st.kept) (hlength : st'.entries.length = st.entries.length)
    (htop : st'.top ≤ Config.stackSize)
    (hbelow : ∀ i < st'.top, i ≤ st.top ∧ st'.entries.take i = st.entries.take i)
    (hin : st'.inRange = true) : st'.kept := by
  refine ⟨hlength.trans h.1, htop, fun i hi x => ?_⟩
  rcases hi.eq_or_lt with rfl | hlt
  · exact OffsetStack.inRange_iff.mp hin x
  · obtain ⟨hle, htake⟩ := hbelow i hlt
    have hrange := h.2.2 i hle x
    unfold OffsetStack.effective at hrange ⊢
    rwa [htake]

theorem OffsetStack.kept.push (h : st.kept) {v : Lanes Int} (hroom : st.top < Config.stackSize)
    (hin : (st.push v).inRange = true) : (st.push v).kept :=
  h.change (List.length_set ..) hroom
    (fun _ hi => ⟨Nat.le_of_lt_succ hi, List.take_set_of_le (Nat.le_of_lt_succ hi)⟩) hin

theorem OffsetStack.kept.replaceTop (h : st.kept) {v : Lanes Int}
    (hin : (st.replaceTop v).inRange = true) : (st.replaceTop v).kept :=
  h.change (List.length_set ..) h.2.1
    (fun _ hi => ⟨hi.le, List.take_set_of_le (Nat.le_sub_one_of_lt hi)⟩) hin

/-- With no entry VALID the effective offset is 0 (R105). -/
theorem OffsetStack.effective_empty (st : OffsetStack) (x : Lane) :
    OffsetStack.effective { st with top := 0 } x = 0 := by
  simp [OffsetStack.effective]

theorem Context.fresh_stack_kept (dwell now : Nat) (k : Int) : (Context.fresh dwell now k).stack.kept :=
  ⟨List.length_replicate, Nat.zero_le _, fun i hi x => by
    obtain rfl := Nat.le_zero.mp hi
    rw [OffsetStack.effective_empty]
    decide⟩

end

/-! ### The Sequencer's operations -/

section
variable (s : State)

theorem State.mapGuide_carries (f : GuideContext → GuideContext) : s.Carries (s.mapGuide f) :=
  .of_running (Running.keeps_guide f).stack

theorem State.mapStats_carries (f : Statistics → Statistics) : s.Carries (s.mapStats f) :=
  .of_running (Running.keeps_stats f).stack

theorem State.enter_carries (m : MotionState) : s.Carries (s.enter m) := by
  obtain ⟨rep, corr, freeIndex, f, spell, settle, hf, he, -⟩ := s.enter_eq m
  rw [he]
  exact .of_running hf.stack

theorem State.departActive_carries (v : Verdict) (why : Reason) (x : Option Lane) :
    s.Carries (s.departActive v why x) := by
  obtain ⟨hactive, -, -, hshelf, -⟩ := s.departActive_slot v why x
  have hsite := (s.departActive_agrees v why x).site
  exact .of_sublist (.inl hactive) (hshelf ▸ .refl _) (by rw [hsite]) (by rw [hsite])

theorem State.abandonShelf_carries (why : Reason) : s.Carries (s.abandonShelf why) := by
  rw [State.abandonShelf_eq]
  exact .of_sublist (.inr rfl) (List.nil_sublist _)

theorem State.departAllQueued_carries (rs : List TargetRecord) (v : Verdict) (why : Reason) :
    s.Carries (s.departAllQueued rs v why) := by
  obtain ⟨starved, startHanded, expiryHanded, he⟩ := State.departAllQueued_eq v why rs s
  rw [he]
  exact .of_fields

/-- A target with its stack in the slot, whatever the slot held, under a slew. -/
theorem State.takeSlot_carries {r t : State} (hrt : r.Carries t) {a : Running} (p : SlewPlan)
    (ha : r.stacksKept → a.ctx.stack.kept) : r.Carries (t.takeSlot a p) := by
  unfold State.takeSlot
  refine State.Carries.trans ?_ (State.enter_carries _ _)
  refine ⟨fun h => ?_, hrt.requests, hrt.responses⟩
  refine (State.stacksKept_iff _).mpr ⟨fun b hb => ?_, ((State.stacksKept_iff _).mp (hrt.offsets h)).2⟩
  obtain rfl := Option.mem_some_iff.mp hb
  exact ha h

theorem State.activate_carries {r t : State} (hrt : r.Carries t) (q : TargetRecord) (p : SlewPlan) :
    r.Carries (t.activate q p) :=
  State.takeSlot_carries hrt p fun _ => Context.fresh_stack_kept _ _ _

theorem State.starve_carries (q : TargetRecord) (n : Nat) (c : Lanes Bool) : s.Carries (s.starve q n c) := by
  unfold State.starve
  split
  · exact .refl s
  · exact .of_fields

theorem activationTest_carries (inRule : Bool) (o : Lanes Motion) :
    ∀ (n : Nat) (s : State), s.Carries (activationTest inRule o n s) := by
  intro n
  induction n with
  | zero => exact State.Carries.refl
  | succ n ih =>
    intro s
    unfold activationTest
    split
    · exact .refl s
    · rename_i r rest _
      have hretired : s.Carries { s with chains := retireTarget s.chains r.targetId s.time.mount } := .of_fields
      split
      · dsimp only
        split
        · exact hretired.trans (State.starve_carries _ _ _ _)
        · exact .trans .of_fields (ih _)
        · split
          · exact State.activate_carries .of_fields _ _
          · exact hretired.trans (State.starve_carries _ _ _ _)
      · exact .refl s

theorem State.testActivation_carries : s.Carries s.testActivation := activationTest_carries _ _ _ s

theorem State.retestIfHeadChanged_carries (before : State) : s.Carries (s.retestIfHeadChanged before) := by
  unfold State.retestIfHeadChanged
  split
  · exact .refl s
  · exact s.testActivation_carries

theorem State.enterIdle_carries (hold : Lanes Int) : s.Carries (s.enterIdle hold) :=
  (State.Carries.trans .of_fields (State.enter_carries _ _)).trans (State.testActivation_carries _)

/-- A restore puts a shelved stack back into the slot as it is (R65). -/
theorem restoreShelf_carries (o : Lanes Motion) :
    ∀ (n : Nat) (s : State), s.Carries (restoreShelf o n s) := by
  intro n
  induction n with
  | zero => exact State.Carries.refl
  | succ n ih =>
    intro s
    unfold restoreShelf
    split
    · exact .refl s
    · rename_i e rest hq
      have hrest : rest.Sublist s.seq.shelf := hq ▸ List.sublist_cons_self e rest
      have htop : s.stacksKept → e.ctx.stack.kept := fun h =>
        (s.stacksKept_iff.mp h).2 e (hq ▸ List.mem_cons_self)
      have hpopped : s.Carries { s with
          seq.shelf := rest
          chains := retireTarget s.chains e.record.targetId s.time.mount } := .of_sublist (.inr rfl) hrest
      have hfail : s.Carries (restoreShelf o n (State.depart { s with
          seq.shelf := rest
          chains := retireTarget s.chains e.record.targetId s.time.mount }
          e.record .abandoned .noTrajectory none .shelved)) := (hpopped.trans .of_fields).trans (ih _)
      dsimp only
      split
      · split
        · exact State.takeSlot_carries hpopped _ htop
        · exact hfail
      · exact hfail
      · exact hfail

theorem State.startPark_carries (o : Lanes Motion) : s.Carries (s.startPark o) :=
  .trans .of_fields (State.enter_carries _ _)

theorem State.startStop_carries (o : Lanes Motion) : s.Carries (s.startStop o) :=
  .trans .of_fields (State.enter_carries _ _)

theorem State.endRule_carries (o : Lanes Motion) : s.Carries (s.endRule o) := by
  have hgrace : s.Carries { s with seq.sup.graceCount := none } := .of_fields
  unfold State.endRule
  dsimp only
  split
  · exact (hgrace.trans (State.abandonShelf_carries _ _)).trans (State.startPark_carries _ _)
  · have hrestored := hgrace.trans (restoreShelf_carries o s.seq.shelf.length _)
    split
    · exact hrestored
    · have htested := hrestored.trans (activationTest_carries true o
        (restoreShelf o s.seq.shelf.length { s with seq.sup.graceCount := none }).seq.queue.length _)
      split
      · exact htested
      · exact htested.trans (State.startStop_carries _ _)

theorem State.endActiveFrom_carries (o : Lanes Motion) (v : Verdict) (why : Reason) :
    s.Carries (s.endActiveFrom o v why) :=
  (s.departActive_carries v why none).trans (State.endRule_carries _ o)

theorem State.endActive_carries (v : Verdict) (why : Reason) : s.Carries (s.endActive v why) :=
  s.endActiveFrom_carries _ v why

theorem State.haltRun_carries (why : Reason) : s.Carries (s.haltRun why) :=
  (((s.departActive_carries _ _ _).trans (State.abandonShelf_carries _ _)).trans .of_fields).trans
    (State.startStop_carries _ _)

/-! ### Conditions, alarms and degrade causes (R58, R60, R148, R155) -/

theorem State.flagCondition_carries (c : Condition) (q : Byte) (n : Nat) : s.Carries (s.flagCondition c q n) := by
  obtain ⟨rep, f, hf, he⟩ := s.flagCondition_eq c q n
  rw [he]
  exact .of_running hf.stack

theorem State.raiseCondition_carries (c : Condition) (q : Byte) (n : Nat) :
    s.Carries (s.raiseCondition c q n) := by
  unfold State.raiseCondition
  dsimp only
  split
  · exact s.flagCondition_carries c q n
  · exact (s.flagCondition_carries c q n).trans (State.endActive_carries _ _ _)

theorem State.enterAlarm_carries (k : AlarmKind) (x : Option Lane) : s.Carries (s.enterAlarm k x) := by
  obtain ⟨-, hactive, hshelf, -, -, -, -, -, -, -, hsite, -⟩ := s.enterAlarm_spec k x
  exact .of_sublist (.inl hactive) (hshelf ▸ List.nil_sublist _) (by rw [hsite]) (by rw [hsite])

theorem State.raiseAlarm_carries (k : AlarmKind) (x : Option Lane) : s.Carries (s.raiseAlarm k x) := by
  unfold State.raiseAlarm
  split
  · split
    · exact .refl s
    · exact .of_fields
  · exact .trans .of_fields (State.enterAlarm_carries _ k x)

theorem State.addCause_carries (c : DegradeCause) (x : Lane) : s.Carries (s.addCause c x) := by
  unfold State.addCause
  dsimp only
  split
  · exact .trans .of_fields (State.enter_carries _ _)
  · exact .of_fields

theorem State.lowerCause_carries (c : DegradeCause) (l : Lanes Bool) : s.Carries (s.lowerCause c l) := by
  unfold State.lowerCause
  dsimp only
  split
  · exact .trans .of_fields (State.enter_carries _ _)
  · exact .of_fields

theorem State.removeCause_carries (c : DegradeCause) (x : Lane) : s.Carries (s.removeCause c x) := by
  unfold State.removeCause
  split
  · exact s.lowerCause_carries _ _
  · exact .refl s

/-! ### Guiding (chapter 7) -/

theorem State.reportGuide_carries (left : GuideState) (cause : GuideCause) :
    s.Carries (s.reportGuide left cause) := by
  obtain ⟨rep, he⟩ := s.reportGuide_eq left cause
  rw [he]
  exact .of_fields

theorem State.startAcquiring_carries (cause : GuideCause) : s.Carries (s.startAcquiring cause) := by
  obtain ⟨rep, freeIndex, f, hf, he⟩ := s.startAcquiring_eq cause
  rw [he]
  exact .of_running hf.stack

theorem State.loseGuide_carries (left : GuideState) (cause : GuideCause) :
    s.Carries (s.loseGuide left cause) := by
  obtain ⟨rep, freeIndex, f, hf, he⟩ := s.loseGuide_eq left cause
  rw [he]
  exact .of_running hf.stack

theorem State.lockGuide_carries (left : GuideState) : s.Carries (s.lockGuide left) := by
  have hlocked : ∀ f, s.Carries (s.mapGuide f).usedGuideFree := fun f => (s.mapGuide_carries f).trans .of_fields
  unfold State.lockGuide
  dsimp only
  split
  · exact hlocked _
  · exact (hlocked _).trans (State.reportGuide_carries _ _ _)

theorem State.startGuide_carries (left : GuideState) : s.Carries (s.startGuide left) := by
  unfold State.startGuide
  dsimp only
  split
  · exact (s.mapGuide_carries _).trans (State.startAcquiring_carries _ _)
  · exact s.mapGuide_carries _

theorem State.stopGuide_carries (left : GuideState) (clear : Bool) : s.Carries (s.stopGuide left clear) := by
  unfold State.stopGuide
  dsimp only
  split
  · exact s.mapGuide_carries _
  · exact (s.mapGuide_carries _).trans (State.reportGuide_carries _ _ _)

theorem State.goodGuide_carries (c : GuideContext) (g : GuideConfig) (f : GuideFields) :
    s.Carries (s.goodGuide c g f) := by
  have hlocked : ∀ (t : State) (azStep elStep : Int),
      t.Carries ((t.addSteps g azStep elStep).lockGuide c.state) :=
    fun t _ _ => (t.mapGuide_carries _).trans (State.lockGuide_carries _ _)
  unfold State.goodGuide
  dsimp only
  split
  · exact hlocked _ _ _
  · split
    · exact (s.flagCondition_carries _ _ _).trans (hlocked _ _ _)
    · refine State.Carries.trans ?_ (State.endActive_carries _ _ _)
      split
      · exact s.flagCondition_carries _ _ _
      · exact (s.flagCondition_carries _ _ _).trans (State.loseGuide_carries _ _ _)

theorem State.takeGuide_carries (src : Byte) (payload : List Byte) : s.Carries (s.takeGuide src payload) := by
  unfold State.takeGuide
  split
  · split
    · exact .refl s
    · dsimp only
      split
      · exact (s.mapGuide_carries _).trans (State.goodGuide_carries _ _ _ _)
      · exact s.mapGuide_carries _
  · exact .refl s

theorem State.expireGuideWatch_carries : s.Carries s.expireGuideWatch := by
  unfold State.expireGuideWatch
  split
  · exact .refl s
  · exact s.loseGuide_carries _ _

end

/-! ### The steps of a sample (R118) -/

section
variable (s : State) (x : Lane)

theorem State.checkDrive_carries (f : SampleFields) : s.Carries (s.checkDrive x f) := by
  have hfault : s.Carries (if f.fault then s.raiseAlarm .driveFault (some x) else s) := by
    split
    · exact s.raiseAlarm_carries _ _
    · exact .refl s
  unfold State.checkDrive
  dsimp only
  split
  · exact hfault.trans (State.raiseAlarm_carries _ _ _)
  · exact hfault

theorem State.evaluateSample_carries : s.Carries s.evaluateSample.1 := by
  unfold State.evaluateSample
  split
  · exact .refl s
  · split
    · exact .refl s
    · exact s.endActive_carries _ _

theorem State.occur_carries (c : Condition) : s.Carries (s.occur c x).1 := s.raiseCondition_carries _ _ _

/-- An occurrence that is not taken as a fault contributes its cause (R58, R148). -/
theorem State.occur_cause_carries (c : Condition) (d : DegradeCause) :
    s.Carries ((s.occur c x).1.addCause d x) := (s.occur_carries x c).trans (State.addCause_carries _ _ _)

theorem State.evaluateChain_carries (c : Chain) (t : Nat) : s.Carries (s.evaluateChain x c t).1 := by
  unfold State.evaluateChain
  split
  · dsimp only
    split
    · exact s.occur_carries x _
    · exact (s.occur_cause_carries x _ _).trans .of_fields
  · dsimp only
    split
    · exact .trans .of_fields (State.removeCause_carries _ _ _)
    · exact .of_fields

theorem State.refillTest_carries (id : Nat) : s.Carries (s.refillTest id x) := by
  unfold State.refillTest
  split
  · exact .refl s
  · split
    · exact .of_fields
    · exact .refl s

theorem State.evaluateLane_carries (t : Nat) : s.Carries (s.evaluateLane x t).1 := by
  unfold State.evaluateLane
  split
  · exact .refl s
  · rename_i a _
    dsimp only
    split
    · exact .refl s
    · have hretired : s.Carries
          { s with chains := mapChain s.chains a.record.targetId x (fun c => c.retire t) } := .of_fields
      split
      · have hvalued := hretired.trans (State.evaluateChain_carries _ x (Chain.retire ‹Chain› t) t)
        split
        · exact hvalued
        · exact hvalued.trans (State.refillTest_carries _ x _)
      · exact hretired.trans (State.refillTest_carries _ x _)

/-- The applied offset moves on, and the stack it moves towards stays (R112). -/
theorem State.advance_carries (rate now : Nat) : s.Carries (s.mapContext (fun c => c.advance x rate now)) :=
  .of_running (f := fun a => { a with ctx := a.ctx.advance x rate now }) fun _ => rfl

theorem State.runningSteps_carries (t : Nat) : s.Carries (s.runningSteps x t).1 := by
  unfold State.runningSteps
  split
  · dsimp only
    split
    · exact s.evaluateSample_carries
    · exact (s.evaluateSample_carries.trans (State.advance_carries _ x _ _)).trans
        (State.evaluateLane_carries _ x t)
  · exact .refl s

theorem State.convertStep_carries (t : Nat) (m : Motion) : s.Carries (s.convertStep x t m).1 := by
  unfold State.convertStep
  split
  · exact .refl s
  · split
    · exact s.removeCause_carries _ x
    · dsimp only
      split
      · exact s.occur_carries x _
      · exact s.occur_cause_carries x _ _

theorem State.occurLimit_carries : s.Carries (s.occurLimit x).1 := by
  have hflagged := s.flagCondition_carries .limitApproach (axisByte (some x)) 0
  unfold State.occurLimit
  dsimp only
  split
  · exact hflagged
  · exact hflagged.trans (State.endActiveFrom_carries _ _ _ _)

theorem State.softStep_carries (t : Nat) (m : Motion) : s.Carries (s.softStep x t m).1 := by
  unfold State.softStep
  split
  · exact s.convertStep_carries x t m
  · split
    · dsimp only
      split
      · exact s.occurLimit_carries x
      · exact ((s.occurLimit_carries x).trans (State.addCause_carries _ _ _)).trans
          (State.convertStep_carries _ x t _)
    · exact (s.removeCause_carries _ x).trans (State.convertStep_carries _ x t m)

theorem State.commandStep_carries (t : Nat) (faulted : Bool) : s.Carries (s.commandStep x t faulted).1 := by
  unfold State.commandStep
  split
  · exact .refl s
  · split
    · exact .refl s
    · exact s.softStep_carries x t _

theorem State.placeSetpoint_carries (tag : Byte) (p : Option Setpoint) :
    s.Carries (s.placeSetpoint x tag p) := by
  cases p <;> exact .of_fields

theorem State.driveSteps_carries (tag : Byte) : s.Carries (s.driveSteps x tag).1 :=
  ((s.runningSteps_carries x _).trans (State.commandStep_carries _ x _ _)).trans
    (State.placeSetpoint_carries _ x tag _)

theorem State.settleTest_carries (err : Int) (braked : Bool) : s.Carries (s.settleTest x err braked) := by
  unfold State.settleTest
  split
  · exact .refl s
  · split
    · exact .of_fields
    · dsimp only
      split
      · exact .trans .of_fields (State.enter_carries _ _)
      · exact .of_fields

theorem State.trackTest_carries (err : Int) : s.Carries (s.trackTest x err) := by
  unfold State.trackTest
  split
  · dsimp only
    split
    · exact s.occur_carries x _
    · exact (s.occur_cause_carries x _ .trackError).trans .of_fields
  · exact .refl s

theorem State.recoverTest_carries (err : Int) (braked : Bool) : s.Carries (s.recoverTest x err braked) := by
  unfold State.recoverTest
  split
  · exact .refl s
  · dsimp only
    split
    · split
      · exact .trans .of_fields (State.addCause_carries _ _ _)
      · exact .of_fields
    · split
      · exact .trans .of_fields (State.lowerCause_carries _ _ _)
      · exact .of_fields

theorem State.parkTest_carries : s.Carries s.parkTest := by
  unfold State.parkTest
  split
  · split
    · exact .trans .of_fields (State.enter_carries _ _)
    · exact .refl s
  all_goals exact .refl s

theorem State.errorTests_carries (err : Int) (braked : Bool) : s.Carries (s.errorTests x err braked) := by
  have hraised : s.Carries (s.raiseMaxError x err) := s.mapStats_carries _
  unfold State.errorTests
  split
  case h_1 => exact hraised.trans (State.settleTest_carries _ x _ _)
  case h_2 => exact hraised.trans (State.trackTest_carries _ x _)
  case h_3 =>
    dsimp only
    split
    · exact hraised.trans (State.recoverTest_carries _ x _ _)
    · exact hraised
  case h_4 => exact s.parkTest_carries
  all_goals exact .refl s

theorem State.errorStep_carries (f : SampleFields) (hold : Bool) : s.Carries (s.errorStep x f hold) := by
  unfold State.errorStep
  split
  · exact .refl s
  · dsimp only
    split
    · exact .of_fields
    · exact .trans .of_fields (State.errorTests_carries _ x _ _)

theorem State.telemetryStep_carries : s.Carries (s.telemetryStep x) := by
  unfold State.telemetryStep State.copyTelemetry
  dsimp only
  repeat' split
  all_goals exact .of_fields

theorem State.takeSample_carries (tag : Byte) (f : SampleFields) : s.Carries (s.takeSample x tag f) := by
  have hrecorded : s.Carries (s.recordSample x f) := .of_fields
  exact (((hrecorded.trans (State.checkDrive_carries _ x f)).trans (State.driveSteps_carries _ x tag)).trans
    (State.errorStep_carries _ x f _)).trans (State.telemetryStep_carries _ x)

end

/-! ### The clock (chapter 9) -/

section
variable (s : State)

theorem State.passTime_carries (d : Nat) : s.Carries (s.passTime d) := by
  obtain ⟨f, hf, he⟩ := s.passTime_eq d
  rw [he]
  exact .of_running hf.stack

theorem State.handExpiries_carries : s.Carries s.handExpiries := by
  rw [State.handExpiries_eq]
  exact .of_fields

theorem State.setClock_carries (value : Nat) : s.Carries (s.setClock value) := by
  have hmoved : s.Carries
      (if s.time.mount ≤ value then s.passTime (value - s.time.mount) else s.turnBack value) := by
    split
    · exact s.passTime_carries _
    · exact .of_fields
  exact (hmoved.trans .of_fields).trans (State.handExpiries_carries _)

theorem State.afterClock_carries : s.Carries s.afterClock :=
  (s.departAllQueued_carries _ _ _).trans (State.testActivation_carries _)

theorem State.pulseLoad_carries (value : Nat) : s.Carries (s.pulseLoad value) := by
  have hunarmed : s.Carries { s with time.load := none } := .of_fields
  unfold State.pulseLoad
  dsimp only
  split
  · exact .of_fields
  · exact ((hunarmed.trans (State.setClock_carries _ value)).trans .of_fields).trans
      (State.afterClock_carries _)

theorem State.tick_carries : s.Carries s.tick := by
  have hpassed : s.Carries
      (if s.time.mount < Config.mountTimeMax then (s.passTime 1).handExpiries else s) := by
    split
    · exact (s.passTime_carries 1).trans (State.handExpiries_carries _)
    · exact .refl s
  exact hpassed.trans .of_fields

end

/-! ### The links (chapter 10)

The links bring requests and send responses, so here the stacks alone are kept. -/

section
variable {s t : State}

theorem State.stacksKept.of_fields (h : s.stacksKept) (active : t.seq.active = s.seq.active := by rfl)
    (shelf : t.seq.shelf = s.seq.shelf := by rfl) : t.stacksKept :=
  t.stacksKept_iff.mpr (active ▸ shelf ▸ s.stacksKept_iff.mp h)

/-- With the slot and the shelf empty there is no stack to keep. -/
theorem State.stacksKept_of_empty (active : s.seq.active = none) (shelf : s.seq.shelf = []) : s.stacksKept := by
  simp [State.stacksKept_iff, active, shelf]

theorem State.proxyFrame_carries (s : State) (x : Lane) (f : Frame) : s.Carries (s.proxyFrame x f) := by
  unfold State.proxyFrame
  repeat' split
  all_goals exact .of_fields

theorem State.replyFrame_carries (s : State) (x : Lane) (f : Frame) : s.Carries (s.replyFrame x f) := by
  unfold State.replyFrame
  repeat' split
  all_goals exact .of_fields

theorem State.sortSite_stacksKept (h : s.stacksKept) (f : Frame) : (s.sortSite f).stacksKept := by
  unfold State.sortSite
  split
  · split
    · unfold State.bufferRequest
      split <;> exact h.of_fields
    · split
      · exact (s.takeGuide_carries _ _).offsets h
      · exact h
  · split
    · exact (s.proxyFrame_carries _ f).offsets h
    · exact h

theorem State.sortAxis_carries (s : State) (x : Lane) (f : Frame) : s.Carries (s.sortAxis x f) := by
  unfold State.sortAxis
  split
  · split
    · split
      · exact s.takeSample_carries x _ _
      · exact .refl s
    · split
      · exact s.replyFrame_carries x f
      · exact .refl s
  · exact .refl s

theorem State.takeRx_stacksKept (h : s.stacksKept) (p : Port) (e : RxEvent) :
    (State.takeRx p s e).stacksKept := by
  cases e with
  | received f =>
    cases p with
    | site => exact State.sortSite_stacksKept h f
    | axis x => exact (s.sortAxis_carries x f).offsets h
  | discarded e => cases p <;> exact h.of_fields

theorem State.receiveLine_stacksKept (h : s.stacksKept) (p : Port) (input : List LineInput) :
    (s.receiveLine p input).stacksKept := by
  have hfold : ∀ (es : List RxEvent) (t : State), t.stacksKept → (es.foldl (State.takeRx p) t).stacksKept := by
    intro es
    induction es with
    | nil => exact fun _ => id
    | cons e es ih => exact fun t ht => ih _ (State.takeRx_stacksKept ht p e)
  refine hfold _ _ ?_
  cases p <;> exact h.of_fields

theorem State.startSite_stacksKept (h : s.stacksKept) : s.startSite.stacksKept := by
  unfold State.startSite
  repeat' split
  all_goals exact h.of_fields

end

/-! ### The bodies of the requests (R106, R110, R180) -/

/-- What a request's body hands back: a state that carries everything on, and for a refusal other than STACK_FAULT
the state that it was given. -/
structure State.Replies (s : State) (out : State × Reply) : Prop where
  carries : s.Carries out.1
  refused : out.2.status ≠ .ok → out.2.status ≠ .stackFault → out.1 = s

section
variable {s t : State}

theorem State.Replies.of_state {out : State × Reply} (h : out.1 = s) : s.Replies out :=
  ⟨h ▸ .refl _, fun _ _ => h⟩

theorem State.Replies.refuse {status : Status} : s.Replies (refuse s status) := .of_state rfl

theorem State.Replies.refuseWith {status : Status} {result : List Byte} :
    s.Replies (refuseWith s status result) := .of_state rfl

theorem State.Replies.accept {result : List Byte} (h : s.Carries t) : s.Replies (accept t result) :=
  ⟨h, fun hok => absurd rfl hok⟩

/-- A check that refuses the request, or else lets it pass. -/
theorem State.Replies.unless {c : Prop} [Decidable c] {status : Status} {out : State × Reply}
    (h : ¬ c → s.Replies out) : s.Replies (if c then Machine.refuse s status else out) := by
  split
  · exact .refuse
  · exact h ‹_›

end

section
variable (p : List Byte) (s : State)

/-! #### The queue requests (chapter 1) -/

theorem submitTargetBody_replies : s.Replies (submitTargetBody p s) := by
  refine .unless fun _ => ?_
  split
  · exact .refuse
  · split
    · exact .refuse
    · exact .accept (.trans (t := s.admitRecord _ _) .of_fields (State.retestIfHeadChanged_carries _ s))

/-- The running target's stack goes onto the shelf with it (R67). -/
theorem State.pushActive_carries : s.Carries s.pushActive := by
  unfold State.pushActive
  obtain ⟨f, hf, he⟩ := s.endSpell_eq
  rw [he]
  cases ha : s.seq.active with
  | none => exact .of_sublist (.inl rfl) (.refl _)
  | some a =>
    refine ⟨fun h => ?_, rfl, rfl⟩
    obtain ⟨hactive, hshelf⟩ := s.stacksKept_iff.mp h
    refine (State.stacksKept_iff _).mpr ⟨fun _ hb => (by cases hb), fun e he => ?_⟩
    rcases List.mem_cons.mp he with rfl | he
    · exact (hf.stack a).symm ▸ hactive a ha
    · exact hshelf e he

theorem State.preempt_replies (r : TargetRecord) (cs : List Chain) : s.Replies (s.preempt r cs) := by
  refine .unless fun _ => .unless fun _ => ?_
  dsimp only
  split
  · exact .refuse
  · exact .accept (State.activate_carries
      (.trans (t := { s with chains := s.chains ++ cs }) .of_fields (State.pushActive_carries _)) _ _)

theorem State.queueFirst_replies (r : TargetRecord) (cs : List Chain) : s.Replies (s.queueFirst r cs) :=
  .unless fun _ => .accept (.trans
    (t := State.setQueue { s with chains := s.chains ++ cs } (r :: s.seq.queue)) .of_fields
    (State.retestIfHeadChanged_carries _ s))

theorem submitOpportunityBody_replies : s.Replies (submitOpportunityBody p s) := by
  refine .unless fun _ => ?_
  split
  · exact .refuse
  · split
    · exact .refuse
    · split
      · exact .refuse
      · refine .unless fun _ => ?_
        split
        · exact .refuse
        · split
          · exact s.preempt_replies _ _
          · exact s.queueFirst_replies _ _

theorem State.departShelved_carries (e : Running) (v : Verdict) (why : Reason) :
    s.Carries (s.departShelved e v why) := .of_sublist (.inr rfl) List.filter_sublist

theorem withdrawTargetBody_replies : s.Replies (withdrawTargetBody p s) := by
  refine .unless fun _ => ?_
  unfold State.withdraw
  split
  · exact .accept (s.endActive_carries _ _)
  · exact .accept (s.departShelved_carries _ _ _)
  · exact .accept (.trans (t := s.departQueued _ _ _) .of_fields (State.retestIfHeadChanged_carries _ s))
  · exact .refuse

theorem flushQueueBody_replies : s.Replies (flushQueueBody p s) :=
  .unless fun _ => .accept (s.departAllQueued_carries _ _ _)

theorem runQueueBody_replies : s.Replies (runQueueBody p s) := by
  refine .unless fun _ => ?_
  split
  · exact .accept (.refl s)
  · exact .accept (.trans (t := { s with seq.mode := .run }) .of_fields (State.testActivation_carries _))

theorem holdQueueBody_replies : s.Replies (holdQueueBody p s) := .unless fun _ => .accept .of_fields

theorem State.setShelvedDwell_carries (id value : Nat) : s.Carries (s.setShelvedDwell id value) := by
  refine .of_places (fun a ha => ⟨a, ha, rfl⟩) fun e he => ?_
  obtain ⟨d, hd, rfl⟩ := List.mem_map.mp he
  exact ⟨d, hd, by split <;> rfl⟩

theorem adjustDwellBody_replies : s.Replies (adjustDwellBody p s) := by
  refine .unless fun _ => ?_
  unfold State.adjustDwell
  split
  · refine .accept ?_
    split
    · exact s.endActive_carries _ _
    · exact .of_running
        (f := fun a => { a with ctx := { a.ctx with dwellRemaining := natAt p 2 4 * 1000 } }) fun _ => rfl
  · refine .accept ?_
    split
    · exact s.departShelved_carries _ _ _
    · exact s.setShelvedDwell_carries _ _
  · exact .unless fun _ => .accept .of_fields
  · exact .refuse

/-! #### The chain requests (chapter 2) -/

theorem appendSegmentsBody_replies : s.Replies (appendSegmentsBody p s) := by
  unfold appendSegmentsBody
  split
  · exact .refuseWith
  · split
    · exact .refuseWith
    · unfold State.appendTo
      split
      · exact .refuseWith
      · split
        · exact .refuseWith
        · refine .accept ?_
          split
          · exact .trans (t := s.storeSegments _ _ _) .of_fields (State.testActivation_carries _)
          · exact .of_fields

theorem closeChainBody_replies : s.Replies (closeChainBody p s) := by
  unfold closeChainBody
  split
  · exact .refuse
  · refine .unless fun _ => ?_
    unfold State.closeChain
    split
    · exact .refuse
    · split
      · exact .refuse
      · exact .accept .of_fields

theorem truncateChainBody_replies : s.Replies (truncateChainBody p s) := by
  unfold truncateChainBody
  split
  · exact .refuse
  · refine .unless fun _ => ?_
    unfold State.truncateChain
    split
    · exact .refuse
    · split
      · exact .accept .of_fields
      · exact .refuse

/-! #### The motion requests (chapters 3 and 8) -/

theorem State.leaveRest_carries : s.Carries s.leaveRest :=
  .trans .of_fields (State.enterIdle_carries _ _)

theorem unparkBody_replies : s.Replies (unparkBody p s) := by
  refine .unless fun _ => .unless fun _ => ?_
  split
  · exact .refuseWith
  · exact .accept s.leaveRest_carries

theorem State.parkNow_carries : s.Carries s.parkNow := by
  unfold State.parkNow
  split
  case h_5 => exact s.startPark_carries _
  case h_6 | h_7 | h_8 | h_9 => exact .of_fields
  all_goals exact (s.haltRun_carries _).trans .of_fields

theorem parkBody_replies : s.Replies (parkBody p s) :=
  .unless fun _ => .unless fun _ => .accept s.parkNow_carries

theorem State.stopNow_carries : s.Carries s.stopNow := by
  unfold State.stopNow
  split
  case h_5 => exact .trans (t := { s with seq.parkPending := false }) .of_fields (State.startStop_carries _ _)
  case h_6 | h_7 | h_8 | h_9 => exact .refl s
  all_goals exact s.haltRun_carries _

theorem stopBody_replies : s.Replies (stopBody p s) :=
  .unless fun _ => .unless fun _ => .accept s.stopNow_carries

theorem clearAlarmBody_replies : s.Replies (clearAlarmBody p s) := by
  refine .unless fun _ => .unless fun _ => ?_
  split
  · exact .refuseWith
  · exact .accept (.trans (t := { s with cond.first := none, cond.causeSet := [] }) .of_fields
      (State.leaveRest_carries _))

/-! #### The correction requests (chapter 5) -/

theorem writeTermBody_replies : s.Replies (writeTermBody p s) :=
  .unless fun _ => .unless fun _ => .unless fun _ => .accept .of_fields

theorem deleteTermBody_replies : s.Replies (deleteTermBody p s) :=
  .unless fun _ => .unless fun _ => .accept .of_fields

theorem commitTermsBody_replies : s.Replies (commitTermsBody p s) := by
  refine .unless fun _ => ?_
  split
  · exact .accept .of_fields
  · exact .accept .of_fields

/-- A stack replaced by one that is kept where the present one is (R111). -/
theorem State.setStack_carries {a : Running} {st : OffsetStack} (ha : s.seq.active = some a)
    (hst : a.ctx.stack.kept → st.kept) : s.Carries (s.setStack a.ctx.stack st) := by
  rw [State.setStack_eq ha]
  refine ⟨fun h => ?_, rfl, rfl⟩
  obtain ⟨hactive, hshelf⟩ := s.stacksKept_iff.mp h
  refine (State.stacksKept_iff _).mpr ⟨fun b hb => ?_, hshelf⟩
  obtain rfl := Option.mem_some_iff.mp hb
  exact hst (hactive a ha)

theorem State.stackFault_replies (i : Indicator) : s.Replies (s.stackFault i) where
  carries := .trans (t := s.mapContext (fun c => { c with indicator := some i }))
    (.of_running (f := fun a => { a with ctx := { a.ctx with indicator := some i } }) fun _ => rfl)
    (State.raiseCondition_carries _ _ _ _)
  refused _ hfault := absurd rfl hfault

theorem pushOffsetBody_replies : s.Replies (pushOffsetBody p s) := by
  refine .unless fun _ => ?_
  split
  · exact .refuse
  · rename_i a ha
    dsimp only
    split
    · exact s.stackFault_replies _
    · rename_i hroom
      split
      · rename_i hin
        exact .accept (s.setStack_carries ha fun h => h.push (Nat.not_le.mp hroom) hin)
      · exact .refuse

theorem popOffsetBody_replies : s.Replies (popOffsetBody p s) := by
  refine .unless fun _ => ?_
  split
  · exact .refuse
  · rename_i a ha
    dsimp only
    split
    · exact s.stackFault_replies _
    · exact .accept (s.setStack_carries ha fun h => h.lower (Nat.sub_le _ _))

theorem replaceTopOffsetBody_replies : s.Replies (replaceTopOffsetBody p s) := by
  refine .unless fun _ => ?_
  split
  · exact .refuse
  · rename_i a ha
    dsimp only
    split
    · exact s.stackFault_replies _
    · split
      · rename_i hin
        exact .accept (s.setStack_carries ha fun h => h.replaceTop hin)
      · exact .refuse

theorem clearOffsetsBody_replies : s.Replies (clearOffsetsBody p s) := by
  refine .unless fun _ => ?_
  split
  · exact .refuse
  · rename_i a ha
    exact .accept (s.setStack_carries ha fun h => h.lower (Nat.zero_le _))

/-! #### The guide and condition requests (chapters 7 and 8) -/

theorem configureGuideBody_replies : s.Replies (configureGuideBody p s) := by
  unfold configureGuideBody
  split
  · exact .refuse
  · exact .accept .of_fields

theorem startGuidingBody_replies : s.Replies (startGuidingBody p s) := by
  refine .unless fun _ => ?_
  split
  · exact .refuse
  · exact .unless fun _ => .unless fun _ => .accept (s.startGuide_carries _)

theorem stopGuidingBody_replies : s.Replies (stopGuidingBody p s) := by
  refine .unless fun _ => ?_
  split
  · exact .refuse
  · exact .accept (s.stopGuide_carries _ _)

theorem setMasksBody_replies : s.Replies (setMasksBody p s) := by
  unfold setMasksBody
  split
  · exact .refuse
  · exact .accept .of_fields

theorem clearConditionsBody_replies : s.Replies (clearConditionsBody p s) := by
  unfold clearConditionsBody
  split
  · exact .refuse
  · split
    · exact .refuse
    · exact .accept (.of_running (f := fun a => { a with ctx := a.ctx.clearFlags ‹BitVec 8› }) fun _ => rfl)

/-! #### The setup and time requests (chapters 4, 9 and 10) -/

theorem loadAxesBody_replies : s.Replies (loadAxesBody p s) := by
  refine .unless fun _ => .unless fun _ => ?_
  split
  · exact .refuse
  · exact .unless fun _ => .accept .of_fields

theorem loadLimitsBody_replies : s.Replies (loadLimitsBody p s) :=
  .unless fun _ => .unless fun _ => .unless fun _ => .unless fun _ => .unless fun _ => .unless fun _ =>
    .accept .of_fields

theorem lockLimitsBody_replies : s.Replies (lockLimitsBody p s) :=
  .unless fun _ => .unless fun _ => .accept .of_fields

theorem loadForwardingBody_replies : s.Replies (loadForwardingBody p s) := by
  refine .unless fun _ => ?_
  split
  · exact .refuse
  · exact .accept .of_fields

theorem setReportDestinationBody_replies : s.Replies (setReportDestinationBody p s) := by
  unfold setReportDestinationBody
  split
  · exact .unless fun _ => .accept .of_fields
  · exact .refuse

theorem enableSupervisionBody_replies : s.Replies (enableSupervisionBody p s) :=
  .unless fun _ => .unless fun _ => .unless fun _ => .accept .of_fields

theorem setTimeBody_replies : s.Replies (setTimeBody p s) := by
  refine .unless fun _ => ?_
  dsimp only
  split
  · exact .refuseWith
  · exact .accept (((s.setClock_carries _).trans .of_fields).trans (State.afterClock_carries _))

theorem setTimeAtPulseBody_replies : s.Replies (setTimeAtPulseBody p s) := .unless fun _ => .accept .of_fields

theorem readTimeBody_replies : s.Replies (readTimeBody p s) := .unless fun _ => .accept .of_fields

theorem readStatusBody_replies : s.Replies (readStatusBody p s) := .unless fun _ => .accept .of_fields

end

/-- Every request but Reset Controller is taken by the Request Processor with a body that replies so. -/
theorem exec_request_replies {c : Instr} (h : (requestCode c).isSome = true ∨ c = .unknownRequest)
    (hc : c ≠ .resetController) :
    ∃ body, (∀ s, exec c s = .next (takeRequest c body s)) ∧ ∀ p s, State.Replies s (body p s) := by
  cases c with
  | submitTarget => exact ⟨_, fun _ => rfl, submitTargetBody_replies⟩
  | submitOpportunity => exact ⟨_, fun _ => rfl, submitOpportunityBody_replies⟩
  | withdrawTarget => exact ⟨_, fun _ => rfl, withdrawTargetBody_replies⟩
  | flushQueue => exact ⟨_, fun _ => rfl, flushQueueBody_replies⟩
  | runQueue => exact ⟨_, fun _ => rfl, runQueueBody_replies⟩
  | holdQueue => exact ⟨_, fun _ => rfl, holdQueueBody_replies⟩
  | readTarget => exact ⟨_, fun _ => rfl, fun p s => .of_state (readTargetBody_state p s)⟩
  | readOutcome => exact ⟨_, fun _ => rfl, fun p s => .of_state (readOutcomeBody_state p s)⟩
  | readCaptures => exact ⟨_, fun _ => rfl, fun p s => .of_state (readCapturesBody_state p s)⟩
  | adjustDwell => exact ⟨_, fun _ => rfl, adjustDwellBody_replies⟩
  | appendSegments => exact ⟨_, fun _ => rfl, appendSegmentsBody_replies⟩
  | closeChain => exact ⟨_, fun _ => rfl, closeChainBody_replies⟩
  | truncateChain => exact ⟨_, fun _ => rfl, truncateChainBody_replies⟩
  | readChain => exact ⟨_, fun _ => rfl, fun p s => .of_state (readChainBody_state p s)⟩
  | unpark => exact ⟨_, fun _ => rfl, unparkBody_replies⟩
  | park => exact ⟨_, fun _ => rfl, parkBody_replies⟩
  | stop => exact ⟨_, fun _ => rfl, stopBody_replies⟩
  | clearAlarm => exact ⟨_, fun _ => rfl, clearAlarmBody_replies⟩
  | writeTerm => exact ⟨_, fun _ => rfl, writeTermBody_replies⟩
  | deleteTerm => exact ⟨_, fun _ => rfl, deleteTermBody_replies⟩
  | commitTerms => exact ⟨_, fun _ => rfl, commitTermsBody_replies⟩
  | readTerms => exact ⟨_, fun _ => rfl, fun p s => .of_state (readTermsBody_state p s)⟩
  | pushOffset => exact ⟨_, fun _ => rfl, pushOffsetBody_replies⟩
  | popOffset => exact ⟨_, fun _ => rfl, popOffsetBody_replies⟩
  | replaceTopOffset => exact ⟨_, fun _ => rfl, replaceTopOffsetBody_replies⟩
  | clearOffsets => exact ⟨_, fun _ => rfl, clearOffsetsBody_replies⟩
  | readOffsets => exact ⟨_, fun _ => rfl, fun p s => .of_state (readOffsetsBody_state p s)⟩
  | configureGuide => exact ⟨_, fun _ => rfl, configureGuideBody_replies⟩
  | startGuiding => exact ⟨_, fun _ => rfl, startGuidingBody_replies⟩
  | stopGuiding => exact ⟨_, fun _ => rfl, stopGuidingBody_replies⟩
  | setMasks => exact ⟨_, fun _ => rfl, setMasksBody_replies⟩
  | clearConditions => exact ⟨_, fun _ => rfl, clearConditionsBody_replies⟩
  | readConditions => exact ⟨_, fun _ => rfl, fun p s => .of_state (readConditionsBody_state p s)⟩
  | loadAxes => exact ⟨_, fun _ => rfl, loadAxesBody_replies⟩
  | loadLimits => exact ⟨_, fun _ => rfl, loadLimitsBody_replies⟩
  | lockLimits => exact ⟨_, fun _ => rfl, lockLimitsBody_replies⟩
  | loadForwarding => exact ⟨_, fun _ => rfl, loadForwardingBody_replies⟩
  | setReportDestination => exact ⟨_, fun _ => rfl, setReportDestinationBody_replies⟩
  | enableSupervision => exact ⟨_, fun _ => rfl, enableSupervisionBody_replies⟩
  | setTime => exact ⟨_, fun _ => rfl, setTimeBody_replies⟩
  | setTimeAtPulse => exact ⟨_, fun _ => rfl, setTimeAtPulseBody_replies⟩
  | readTime => exact ⟨_, fun _ => rfl, readTimeBody_replies⟩
  | peekTime => exact ⟨_, fun _ => rfl, fun p s => .of_state (peekTimeBody_state p s)⟩
  | readStatus => exact ⟨_, fun _ => rfl, readStatusBody_replies⟩
  | resetController => exact absurd rfl hc
  | unknownRequest => exact ⟨_, fun _ => rfl, fun _ _ => .refuse⟩
  | _ => exact h.elim nofun nofun

/-! ## Every request is answered once (R106, R110, R173, R180, R181) -/

section
variable {s : State} {r : Request} {rest : List Request} {code : Byte} {p : List Byte}

/-- Reset Controller refuses and changes nothing, or empties the queues (R187). -/
theorem resetControllerBody_cases (p : List Byte) (s : State) :
    (∃ status, resetControllerBody p s = refuse s status) ∨
      ∃ result, resetControllerBody p s = accept s.softReset result := by
  unfold resetControllerBody
  split
  · exact .inl ⟨_, rfl⟩
  · split
    · exact .inl ⟨_, rfl⟩
    · exact .inr ⟨_, rfl⟩

/-- A response joins the tail of the response queue, under the request's own code. -/
theorem State.respond_last (h : s.asks r rest code p) (t : State) (reply : Reply) :
    (t.respond r reply).site.responses =
      t.site.responses ++ [{ dest := r.src, tag := r.tag, code, reply }] := by
  simp only [State.respond, h.2.1, List.headD_cons]

/-- What the taking of a request answers, from what its body makes of the state with the request taken. -/
theorem exec_asks_answered {c : Instr} {body : List Byte → State → State × Reply} {out : State × Reply}
    (h : s.asks r rest code p) (hc : requestOf (code :: p) = c)
    (hexec : exec c s = .next (takeRequest c body s))
    (hout : body p { s with site.requests := rest } = out)
    (hkept : c ≠ .resetController → State.Carries { s with site.requests := rest } out.1)
    (hrefused : out.2.status ≠ .ok → out.2.status ≠ .stackFault →
      out.1 = { s with site.requests := rest }) :
    ∃ t reply, exec c s = .next t ∧
      t.site.responses.getLast? = some { dest := r.src, tag := r.tag, code, reply } ∧
      (c ≠ .resetController → t.site.requests = rest ∧ t.site.responses =
        s.site.responses ++ [{ dest := r.src, tag := r.tag, code, reply }]) ∧
      (reply.status ≠ .ok → reply.status ≠ .stackFault → t = s.answered r rest code reply) := by
  refine ⟨out.1.respond r out.2, out.2, by rw [hexec, takeRequest_asks h hc, hout], ?_,
    fun hne => ⟨(hkept hne).requests, ?_⟩, fun hok hfault => ?_⟩
  · rw [State.respond_last h]
    exact List.getLast?_concat
  · rw [State.respond_last h, (hkept hne).responses]
  · rw [hrefused hok hfault]
    exact State.respond_taken h

end

/-- Settles O15: the body of every request carries the two queues on, and Reset Controller's own response is the
one that it leaves. -/
theorem everyRequestIsAnsweredOnce : Obligations.EveryRequestIsAnsweredOnce := by
  intro s r rest code p h
  by_cases hreset : requestOf (code :: p) = .resetController
  · rw [hreset]
    rcases resetControllerBody_cases p { s with site.requests := rest } with ⟨_, he⟩ | ⟨_, he⟩
    · exact exec_asks_answered h hreset rfl he (fun hne => absurd rfl hne) fun _ _ => rfl
    · exact exec_asks_answered h hreset rfl he (fun hne => absurd rfl hne) fun hok => absurd rfl hok
  · obtain ⟨body, hexec, hreplies⟩ := exec_request_replies (requestOf_names _) hreset
    exact exec_asks_answered h rfl (hexec s) rfl (fun _ => (hreplies p _).carries) (hreplies p _).refused

/-! ## Every step keeps the offset stacks in range (R105) -/

section
variable {s t : State}

/-- A request command keeps the stacks where its body does. -/
theorem takeRequest_stacksKept {cmd : Instr} {body : List Byte → State → State × Reply}
    (hbody : ∀ p t, State.stacksKept t → (body p t).1.stacksKept) (h : s.stacksKept) :
    (takeRequest cmd body s).stacksKept :=
  takeRequest_of_body (fun _ _ ht => ht.of_fields) hbody h

theorem resetControllerBody_stacksKept (p : List Byte) (h : s.stacksKept) :
    (resetControllerBody p s).1.stacksKept := by
  rcases resetControllerBody_cases p s with ⟨_, he⟩ | ⟨_, he⟩ <;> rw [he]
  · exact h
  · exact State.stacksKept_of_empty rfl rfl

theorem exec_request_stacksKept {c : Instr} (hc : (requestCode c).isSome = true ∨ c = .unknownRequest)
    (h : s.stacksKept) (he : exec c s = .next t) : t.stacksKept := by
  by_cases hreset : c = .resetController
  · subst hreset
    cases he
    exact takeRequest_stacksKept (fun p _ => resetControllerBody_stacksKept p) h
  · obtain ⟨body, hexec, hreplies⟩ := exec_request_replies hc hreset
    cases (hexec s).symm.trans he
    exact takeRequest_stacksKept (fun p u => (hreplies p u).carries.offsets) h

/-- A lapse ends the active target by the grace rule, or begins the park slew (R75, R76). -/
theorem State.lapse_carries (s : State) : s.Carries s.lapse := by
  have heffect : ∀ t : State, t.Carries t.lapseEffect := by
    intro t
    unfold State.lapseEffect
    split
    case h_5 => exact t.startPark_carries _
    case h_6 | h_7 | h_8 | h_9 => exact .of_fields
    all_goals
      dsimp only
      split
      · exact .trans .of_fields (State.endActive_carries _ _ _)
      · exact .of_fields
  exact .trans .of_fields (heffect _)

theorem State.completeStop_carries (s : State) (p : StopPlan) : s.Carries (s.completeStop p) := by
  unfold State.completeStop
  split
  · exact s.startPark_carries _
  · exact s.enterIdle_carries _

theorem State.captureEdge_carries (s : State) (e : ShutterEdge) : s.Carries (s.captureEdge e) :=
  .of_running (f := fun a => { a with record := a.record.addCapture (s.captureOf e a) }) fun _ => rfl

/-- A command that is no request carries the stacks on; the links and a pin reset by lemmas of their own. -/
theorem exec_event_stacksKept {c : Instr} (hc : ¬ ((requestCode c).isSome = true ∨ c = .unknownRequest))
    (h : s.stacksKept) : ∃ t, exec c s = .next t ∧ t.stacksKept := by
  cases c with
  | requestFrameReception | guideFrame | sample | proxyServiceFrame | serviceReply | linkError =>
    exact ⟨_, rfl, State.receiveLine_stacksKept h _ _⟩
  | waitIdleReturnToHunt p =>
    refine ⟨_, rfl, ?_⟩
    split
    · exact State.receiveLine_stacksKept h _ _
    · exact h
  | siteTransmitStart =>
    refine ⟨_, rfl, ?_⟩
    split
    · exact State.startSite_stacksKept h
    · exact h
  | axisTransmitStart x =>
    refine ⟨_, rfl, ?_⟩
    split
    · exact h.of_fields
    · exact h
  | frameTransmissionEnd p =>
    refine ⟨_, rfl, ?_⟩
    cases p <;> exact h.of_fields
  | pinReset straps permit =>
    have hreset : (s.pinReset straps permit).stacksKept := State.stacksKept_of_empty rfl rfl
    refine ⟨_, rfl, ?_⟩
    split
    · exact hreset
    · exact (State.raiseAlarm_carries _ _ _).offsets hreset
  | permitLost =>
    have hlow : State.stacksKept { s with permit := false } := h.of_fields
    exact ⟨_, rfl, (State.raiseAlarm_carries _ _ _).offsets hlow⟩
  | permitRise => exact ⟨_, rfl, h.of_fields⟩
  | encoderSilent x =>
    refine ⟨_, rfl, ?_⟩
    split
    · exact (s.raiseAlarm_carries _ _).offsets h
    · exact h
  | pulseEdge =>
    have hcaptured : s.capturePulse.stacksKept := h.of_fields
    refine ⟨_, rfl, ?_⟩
    split
    · exact hcaptured
    · exact (State.pulseLoad_carries _ _).offsets hcaptured
  | shutterEdge e =>
    have hcaptured := (s.captureEdge_carries e).offsets h
    refine ⟨_, rfl, ?_⟩
    split
    · exact h.of_fields
    · dsimp only
      split
      · exact (State.raiseCondition_carries _ _ _ _).offsets hcaptured
      · exact hcaptured
  | supervisionLapse =>
    refine ⟨_, rfl, ?_⟩
    split
    · exact s.lapse_carries.offsets h
    · exact h
  | graceExpiry | guideLost | dwellCompletion =>
    refine ⟨_, rfl, ?_⟩
    split
    · exact (s.endActive_carries _ _).offsets h
    · exact h
  | guideWatchExpiry =>
    refine ⟨_, rfl, ?_⟩
    split
    · exact s.expireGuideWatch_carries.offsets h
    · exact h
  | slewCompletion =>
    have hplanless : State.stacksKept { s with planner.current := .none } := h.of_fields
    refine ⟨_, rfl, ?_⟩
    split
    · exact (State.enter_carries _ _).offsets hplanless
    · exact h
  | stopCompletion =>
    refine ⟨_, rfl, ?_⟩
    split
    · exact (s.completeStop_carries _).offsets h
    · exact h
  | windowExpiry id =>
    refine ⟨_, rfl, ?_⟩
    split
    · exact ((s.departAllQueued_carries _ _ _).trans (State.retestIfHeadChanged_carries _ _)).offsets h
    · exact h
  | startTimeReached =>
    have htaken : State.stacksKept { s with seq.startHanded := false } := h.of_fields
    refine ⟨_, rfl, ?_⟩
    unfold State.takeStart
    split
    · exact (State.testActivation_carries _).offsets htaken
    · exact h
  | unknownRequest => exact absurd (.inr rfl) hc
  | _ => exact absurd (.inl rfl) hc

theorem exec_stacksKept {c : Instr} (h : s.stacksKept) (he : exec c s = .next t) : t.stacksKept := by
  by_cases hc : (requestCode c).isSome = true ∨ c = .unknownRequest
  · exact exec_request_stacksKept hc h he
  · exact exec_of_next (exec_event_stacksKept hc h) he

end

/-- Settles O12: no command and no microsecond takes a stack out of its bounds. -/
theorem offsetStacksStayInRange : Obligations.OffsetStacksStayInRange := fun _ _ h hstep =>
  step_keeps (fun _ _ hs => hs.of_fields) (fun _ _ _ hs he => exec_stacksKept hs he)
    (fun s hs => s.tick_carries.offsets hs) h hstep

/-! ## The term tables (R96, R99, R100, R102) -/

theorem termForm_iff (kind n phase : Nat) : termForm kind n phase = true ↔
    kind ≤ 9 ∧ (kind = 7 ∨ kind = 8 → 1 ≤ n ∧ n ≤ 8 ∧ (phase = 1 ∨ phase = 2)) ∧
      (¬(kind = 7 ∨ kind = 8) → n = 0 ∧ phase = 0) := by
  unfold termForm
  split
  · simp only [Bool.and_eq_true, Bool.or_eq_true, decide_eq_true_eq]
    omega
  · simp only [Bool.and_eq_true, decide_eq_true_eq]
    omega

theorem Term.named_iff (t : Term) (kind n phase : Nat) :
    t.named kind n phase = true ↔ t.kind = kind ∧ t.n = n ∧ t.phase = phase := by
  simp only [Term.named, Bool.and_eq_true, decide_eq_true_eq, and_assoc]

theorem withoutTerm_eq (ts : List Term) (kind n phase : Nat) : withoutTerm ts kind n phase =
    ts.filter (fun t => decide (¬(t.kind = kind ∧ t.n = n ∧ t.phase = phase))) :=
  List.filter_congr fun t _ => by
    rw [Bool.eq_iff_iff, decide_eq_true_iff, ← Term.named_iff, Bool.not_eq_true', Bool.not_eq_true]

section
variable {s : State} {p : List Byte} {kind n phase : Nat}

theorem State.stagedTerm_isSome : (s.stagedTerm kind n phase).isSome = true ↔
    ∃ t ∈ s.corr.staged, t.kind = kind ∧ t.n = n ∧ t.phase = phase := by
  simp only [State.stagedTerm, List.find?_isSome, Term.named_iff]

theorem State.stagedTerm_eq_none : s.stagedTerm kind n phase = none ↔
    ¬ ∃ t ∈ s.corr.staged, t.kind = kind ∧ t.n = n ∧ t.phase = phase := by
  rw [← State.stagedTerm_isSome, Option.not_isSome_iff_eq_none]

/-- The record that the parameters of a Write Term give (R96, R99). -/
def writtenTerm (p : List Byte) : Term :=
  { kind := natAt p 0 1, n := natAt p 1 1, phase := natAt p 2 1, c := intAt p 3 4 }

theorem writeTermBody_badParam (h : p.length ≠ 7 ∨ ¬ termForm (natAt p 0 1) (natAt p 1 1) (natAt p 2 1) = true ∨
    3600000 < (intAt p 3 4).natAbs) : writeTermBody p s = refuse s .badParam := by
  rw [Bool.not_eq_true] at h
  exact if_pos h

/-- Write Term behind its form check: the staged table's own two checks, in their order (R99). -/
theorem writeTermBody_of_valid (hl : p.length = 7)
    (hform : termForm (natAt p 0 1) (natAt p 1 1) (natAt p 2 1) = true)
    (hbound : (intAt p 3 4).natAbs ≤ 3600000) : writeTermBody p s =
      if (s.stagedTerm (natAt p 0 1) (natAt p 1 1) (natAt p 2 1)).isSome then refuse s .duplicateTerm
      else if 24 ≤ s.corr.staged.length then refuse s .tableFull
      else accept { s with corr.staged := s.corr.staged ++ [writtenTerm p] }
        (natBytes 1 (s.corr.staged.length + 1)) := by
  refine if_neg ?_
  rw [Bool.eq_false_iff]
  exact fun h => h.elim (absurd hl) fun h => h.elim (absurd hform) (absurd hbound ∘ Nat.not_le.mpr)

theorem deleteTermBody_badParam
    (h : p.length ≠ 3 ∨ ¬ termForm (natAt p 0 1) (natAt p 1 1) (natAt p 2 1) = true) :
    deleteTermBody p s = refuse s .badParam := by
  rw [Bool.not_eq_true] at h
  exact if_pos h

/-- Delete Term behind its form check (R100). -/
theorem deleteTermBody_of_valid (hl : p.length = 3)
    (hform : termForm (natAt p 0 1) (natAt p 1 1) (natAt p 2 1) = true) : deleteTermBody p s =
      if (s.stagedTerm (natAt p 0 1) (natAt p 1 1) (natAt p 2 1)).isNone then refuse s .notFound
      else
        let left := withoutTerm s.corr.staged (natAt p 0 1) (natAt p 1 1) (natAt p 2 1)
        accept { s with corr.staged := left } (natBytes 1 left.length) := by
  refine if_neg ?_
  rw [Bool.eq_false_iff]
  exact fun h => h.elim (absurd hl) (absurd hform)

theorem commitTermsBody_pending (h : s.seq.motion ∈ [.settling, .tracking, .degraded]) :
    commitTermsBody [] s = accept { s with corr.commitPending := true } [1] :=
  (if_neg (not_not.mpr rfl)).trans (if_pos (MotionState.composing_iff.mpr h))

theorem commitTermsBody_taken (h : s.seq.motion ∉ [.settling, .tracking, .degraded]) :
    commitTermsBody [] s = accept s.commitNow [0] :=
  (if_neg (not_not.mpr rfl)).trans (if_neg fun hm => h (MotionState.composing_iff.mp hm))

end

/-- Settles O32: each request passes its checks in their order, and Commit Terms asks for the motion state. -/
theorem termTableRequests : Obligations.TermTableRequests := by
  refine ⟨fun s r rest p => ?_, fun s r rest p h hp => exec_answers h rfl rfl (if_pos hp),
    fun s r rest hr hd c hc hnames => ?_, fun s r rest h => ⟨fun hm => ?_, fun hm => ?_⟩⟩
  · intro kind n phase harmonic fits staged
    let taken : State := { s with site.requests := rest }
    have hfits : termForm kind n phase = true ↔ fits := termForm_iff _ _ _
    have hstaged : (taken.stagedTerm kind n phase).isSome = true ↔ staged := State.stagedTerm_isSome
    have hmissing : taken.stagedTerm kind n phase = none ↔ ¬ staged := State.stagedTerm_eq_none
    refine ⟨fun h hl hform hbound => ?_, fun h hbad => ?_, fun h hbad => ?_, fun h hl hform => ?_⟩
    · have hbody := writeTermBody_of_valid (s := taken) hl (hfits.mpr hform) hbound
      refine ⟨fun hnew hroom => ?_, fun hold => ?_, fun hnew hfull => ?_⟩
      · rw [if_neg (mt hstaged.mp hnew), if_neg (Nat.not_le.mpr hroom)] at hbody
        exact exec_answers (u := { s with corr.staged := s.corr.staged ++ [writtenTerm p] }) h rfl rfl hbody
      · rw [if_pos (hstaged.mpr hold)] at hbody
        exact exec_answers h rfl rfl hbody
      · rw [if_neg (mt hstaged.mp hnew), if_pos hfull] at hbody
        exact exec_answers h rfl rfl hbody
    · rw [← hfits] at hbad
      exact exec_answers h rfl rfl (writeTermBody_badParam hbad)
    · rw [← hfits] at hbad
      exact exec_answers h rfl rfl (deleteTermBody_badParam hbad)
    · intro left
      have hbody := deleteTermBody_of_valid (s := taken) hl (hfits.mpr hform)
      rw [withoutTerm_eq] at hbody
      refine ⟨fun hold => ?_, fun hnew => ?_⟩
      · rw [if_neg fun hnone => hmissing.mp (Option.isNone_iff_eq_none.mp hnone) hold] at hbody
        exact exec_answers (u := { s with corr.staged := left }) h rfl rfl hbody
      · rw [if_pos (Option.isNone_iff_eq_none.mpr (hmissing.mpr hnew))] at hbody
        exact exec_answers h rfl rfl hbody
  · simp only [List.mem_cons, List.not_mem_nil, or_false] at hc
    rcases hc with rfl | rfl | rfl <;>
      exact congrArg Host.Outcome.next (takeRequest_discards hr hd hnames rfl)
  · exact exec_answers (u := s.commitNow) h rfl rfl
      (commitTermsBody_taken (s := { s with site.requests := rest }) hm)
  · exact exec_answers (u := { s with corr.commitPending := true }) h rfl rfl
      (commitTermsBody_pending (s := { s with site.requests := rest }) hm)

/-! ## Pop, Replace Top and Clear Offsets (R106, R108, R109) -/

section
variable {st : OffsetStack} {below above : List (Lanes Int)} {entry : Lanes Int}
  (hentries : st.entries = below ++ entry :: above) (htop : st.top = below.length + 1)
include hentries htop

theorem OffsetStack.topEntry_eq : st.topEntry = entry := by
  simp [OffsetStack.topEntry, hentries, htop]

theorem OffsetStack.replaceTop_eq (v : Lanes Int) :
    st.replaceTop v = { st with entries := below ++ v :: above } := by
  simp [OffsetStack.replaceTop, hentries, htop]

end

theorem offsetForm_iff (p : List Byte) :
    offsetForm p = true ↔ p.length = 13 ∧ 1 ≤ natAt p 0 1 ∧ natAt p 0 1 ≤ 7 := by
  simp only [offsetForm, Bool.and_eq_true, decide_eq_true_eq, and_assoc]

section
variable {s : State} {a : Running} {p : List Byte}

theorem popOffsetBody_of_top {top : Nat} (ha : s.seq.active = some a) (htop : a.ctx.stack.top = top + 1) :
    popOffsetBody [] s =
      (s.stackTo a { a.ctx.stack with top }, okReply (lanesBytes a.ctx.stack.topEntry ++ natBytes 1 top ++
        lanesBytes (OffsetStack.effectiveAll { a.ctx.stack with top }))) := by
  have hpop : a.ctx.stack.pop = { a.ctx.stack with top } := by
    rw [OffsetStack.pop, htop]
    rfl
  have hsome : ¬ a.ctx.stack.top = 0 := htop ▸ Nat.succ_ne_zero _
  unfold popOffsetBody
  rw [if_neg (not_not.mpr rfl), ha]
  dsimp only
  rw [if_neg hsome, hpop, State.setStack_eq ha]
  rfl

theorem replaceTopOffsetBody_of_top {v : Lanes Int} (hform : offsetForm p = true) (ha : s.seq.active = some a)
    (htop : a.ctx.stack.top ≠ 0)
    (hv : mergeLanes (laneSetOf (natAt p 0 1)) (lanesAt p 1) a.ctx.stack.topEntry = v) :
    replaceTopOffsetBody p s =
      if (a.ctx.stack.replaceTop v).inRange then
        (s.stackTo a (a.ctx.stack.replaceTop v), okReply (lanesBytes v ++
          lanesBytes (a.ctx.stack.replaceTop v).effectiveAll))
      else refuse s .offsetRange := by
  unfold replaceTopOffsetBody
  rw [if_neg (by rw [hform]; decide), ha]
  dsimp only
  rw [if_neg htop, hv, State.setStack_eq ha]
  rfl

theorem clearOffsetsBody_of_active (ha : s.seq.active = some a) : clearOffsetsBody [] s =
    (s.stackTo a { a.ctx.stack with top := 0 }, okReply (natBytes 1 a.ctx.stack.top)) := by
  unfold clearOffsetsBody
  rw [if_neg (not_not.mpr rfl), ha]
  dsimp only
  rw [State.setStack_eq ha]
  rfl

end

/-- Every offset request whose form passes is refused NO_TARGET with the slot empty (R106). -/
theorem exec_offset_noTarget {s : State} {r : Request} {rest : List Request} {c : Instr} {code : Byte}
    {p : List Byte} (ha : s.seq.active = none)
    (hc : c ∈ [Instr.pushOffset, .popOffset, .replaceTopOffset, .clearOffsets, .readOffsets])
    (hcode : requestCode c = some code) (h : s.asks r rest code p)
    (hl : p.length = if c = .pushOffset ∨ c = .replaceTopOffset then 13 else 0)
    (hset : c = .pushOffset ∨ c = .replaceTopOffset → 1 ≤ natAt p 0 1 ∧ natAt p 0 1 ≤ 7) :
    exec c s = .next (s.answered r rest code { status := .noTarget, result := [] }) := by
  have hform : c = .pushOffset ∨ c = .replaceTopOffset → offsetForm p = true := fun hv =>
    (offsetForm_iff p).mpr ⟨by rw [hl, if_pos hv], hset hv⟩
  have hempty : ¬(c = .pushOffset ∨ c = .replaceTopOffset) → p = [] := fun hv =>
    List.length_eq_zero_iff.mp (by rw [hl, if_neg hv])
  simp only [List.mem_cons, List.not_mem_nil, or_false] at hc
  rcases hc with rfl | rfl | rfl | rfl | rfl <;> cases hcode
  · exact exec_answers h rfl rfl (by simp [pushOffsetBody, hform (.inl rfl), ha]; rfl)
  · exact exec_answers h rfl rfl (by simp [popOffsetBody, hempty (by simp), ha]; rfl)
  · exact exec_answers h rfl rfl (by simp [replaceTopOffsetBody, hform (.inr rfl), ha]; rfl)
  · exact exec_answers h rfl rfl (by simp [clearOffsetsBody, hempty (by simp), ha]; rfl)
  · exact exec_answers h rfl rfl (by simp [readOffsetsBody, hempty (by simp), ha]; rfl)

/-- Settles O34: the stack is split at its top entry, which a pop leaves behind and a replacement changes. -/
theorem popReplaceAndClearOffsets : Obligations.PopReplaceAndClearOffsets := by
  refine ⟨fun s r rest p a below entry above ha hentries htop => ⟨fun h => ?_, fun h hl hlow hhigh => ?_⟩,
    fun s r rest => ⟨fun a h ha => ⟨?_, fun x => OffsetStack.effective_empty _ x⟩,
      fun ha c hc code p hcode h hl hset => exec_offset_noTarget ha hc hcode h hl hset⟩⟩
  · intro stack
    have hbody := popOffsetBody_of_top (s := { s with site.requests := rest }) ha htop
    rw [OffsetStack.topEntry_eq hentries htop] at hbody
    exact exec_answers (u := s.stackTo a stack) h rfl rfl hbody
  · intro new stack
    have hnew : mergeLanes (laneSetOf (natAt p 0 1)) (lanesAt p 1) a.ctx.stack.topEntry = new := by
      rw [mergeLanes_eq, OffsetStack.topEntry_eq hentries htop]
    have hbody := replaceTopOffsetBody_of_top (s := { s with site.requests := rest })
      ((offsetForm_iff p).mpr ⟨hl, hlow, hhigh⟩) ha (by rw [htop]; exact Nat.succ_ne_zero _) hnew
    rw [OffsetStack.replaceTop_eq hentries htop] at hbody
    refine ⟨fun hin => ?_, fun ⟨x, hx⟩ => ?_⟩
    · rw [if_pos (OffsetStack.inRange_iff.mpr hin)] at hbody
      exact exec_answers (u := s.stackTo a stack) h rfl rfl hbody
    · rw [if_neg fun hin => absurd (OffsetStack.inRange_iff.mp hin x) (Nat.not_le.mpr hx)] at hbody
      exact exec_answers h rfl rfl hbody
  · exact exec_answers (u := s.stackTo a { a.ctx.stack with top := 0 }) h rfl rfl
      (clearOffsetsBody_of_active (s := { s with site.requests := rest }) ha)

/-! ## STACK_FAULT (R106, R110, R148) -/

/-- The active target with the indicator recorded, the OFFSET_STACK flag set, and the report where it was clear
(R110, R148). -/
def State.stackFlagged (s : State) (a : Running) (i : Indicator) : State :=
  State.flagged { s with seq.active := some { a with ctx.indicator := some i } }
    { a with ctx.indicator := some i } .offsetStack (indicatorCode (some i)) 0

section
variable {s : State} {a : Running} {i : Indicator}

/-- A masked occurrence stays at the flag, and an unmasked one ends the target (R148). -/
theorem State.stackFault_eq (ha : s.seq.active = some a) (i : Indicator) : s.stackFault i =
    refuse (if s.cond.mask.getLsbD 5 then s.stackFlagged a i
      else (s.stackFlagged a i).endActive .faulted (.condition .offsetStack)) .stackFault := by
  let t : State := { s with seq.active := some { a with ctx.indicator := some i } }
  have hrecorded : s.mapContext (fun c => { c with indicator := some i }) = t :=
    State.mapContext_of_active ha _
  have hflagged : t.flagCondition .offsetStack (indicatorCode (some i)) 0 = s.stackFlagged a i :=
    State.flagCondition_eq_flagged rfl _ _ _
  unfold State.stackFault
  rw [hrecorded]
  cases hm : s.cond.mask.getLsbD 5 with
  | true =>
    rw [State.raiseCondition_masked _ _ (.inl (by exact hm)), hflagged]
    rfl
  | false =>
    rw [State.raiseCondition_unmasked _ _ (by exact hm) rfl, hflagged]
    rfl

end

/-- Settles O35: each of the three requests comes to `State.stackFault` behind its form check. -/
theorem stackFaultRaisesOffsetStack : Obligations.StackFaultRaisesOffsetStack := by
  intro s r rest p a c code ha hcode h hcases hset i b u
  let taken : State := { s with site.requests := rest }
  have hu : taken.stackFlagged a i = u := by
    have hqualifier : indicatorCode (some i) = if c = .pushOffset then 1 else 2 := by
      simp only [i]
      split <;> rfl
    unfold State.stackFlagged
    rw [hqualifier]
    rfl
  obtain ⟨body, hexec, hbody⟩ : ∃ body, exec c s = .next (takeRequest c body s) ∧
      body p taken = taken.stackFault i := by
    rcases hcases with ⟨rfl, hfull, hl⟩ | ⟨rfl, hempty, rfl⟩ | ⟨rfl, hempty, hl⟩
    · have hform := (offsetForm_iff p).mpr ⟨hl, hset (by decide)⟩
      refine ⟨_, rfl, ?_⟩
      simp [pushOffsetBody, hform, taken, ha, i, Config.stackSize, hfull]
    · refine ⟨_, rfl, ?_⟩
      simp [popOffsetBody, taken, ha, i, hempty]
    · have hform := (offsetForm_iff p).mpr ⟨hl, hset (by decide)⟩
      refine ⟨_, rfl, ?_⟩
      simp [replaceTopOffsetBody, hform, taken, ha, i, hempty]
  have hc : requestOf (code :: p) = c := by
    rcases hcases with ⟨rfl, -⟩ | ⟨rfl, -⟩ | ⟨rfl, -⟩ <;> cases hcode <;> rfl
  rw [State.stackFault_eq (s := taken) ha, hu] at hbody
  refine ⟨fun hm => ?_, fun hm => ⟨u.endActive .faulted (.condition .offsetStack), ?_, ?_⟩⟩
  · rw [if_pos (by exact hm)] at hbody
    exact exec_answers_body h hc hexec hbody rfl
  · rw [if_neg (by rw [show taken.cond.mask.getLsbD 5 = false from hm]; decide)] at hbody
    refine exec_answers_body h hc hexec hbody ?_
    rw [(u.endActive_spec _ _).1.site]
  · exact State.endActiveFrom_ended (s := u) rfl u.present _ _

end Sys2Proof.Machine

/-! # Frames out, and samples outside the running states: obligations O51, O52 -/

namespace Sys2Proof.Machine

set_option Elab.async false

/-! ## The arbiters (R129, R175) -/

theorem Transmitter.free_iff {t : Transmitter} : t.free = true ↔ t.inFlight = none ∧ t.gap = 0 := by
  unfold Transmitter.free
  rw [Bool.and_eq_true, Option.isNone_iff_eq_none, decide_eq_true_iff]

theorem Transmitter.not_free {t : Transmitter} (h : t.inFlight ≠ none ∨ t.gap ≠ 0) : ¬ t.free = true :=
  fun hfree => h.elim (absurd (free_iff.mp hfree).1) (absurd (free_iff.mp hfree).2)

section
variable {s : State} {x : Lane}

/-! ### An axis port: the control slot, the setpoint slot, the service queue -/

theorem exec_axisTransmitStart_free {q : AxisPort} (hflight : (s.ports.get x).tx.inFlight = none)
    (hgap : (s.ports.get x).tx.gap = 0) (hstart : (s.ports.get x).start = q) :
    exec (.axisTransmitStart x) s = .next { s with ports := s.ports.set x q } :=
  (congrArg Host.Outcome.next (if_pos (Transmitter.free_iff.mpr ⟨hflight, hgap⟩))).trans (hstart ▸ rfl)

theorem exec_axisTransmitStart_busy
    (h : (s.ports.get x).tx.inFlight ≠ none ∨ (s.ports.get x).tx.gap ≠ 0) :
    exec (.axisTransmitStart x) s = .next s :=
  congrArg Host.Outcome.next (if_neg (Transmitter.not_free h))

variable {p : AxisPort} {f : Frame} {fs : List Frame}

theorem AxisPort.start_of_control (hc : p.control = some f) :
    p.start = { p with tx := startFrame f, control := none } := by
  simp only [AxisPort.start, hc]

theorem AxisPort.start_of_setpoint (hc : p.control = none) (hp : p.setpoint = some f) :
    p.start = { p with tx := startFrame f, setpoint := none } := by
  simp only [AxisPort.start, hc, hp]

theorem AxisPort.start_of_service (hc : p.control = none) (hp : p.setpoint = none)
    (hs : p.service = f :: fs) : p.start = { p with tx := startFrame f, service := fs } := by
  simp only [AxisPort.start, hc, hp, hs]

theorem exec_frameTransmissionEnd_axis {i : InFlight} (h : (s.ports.get x).tx.inFlight = some i) :
    exec (.frameTransmissionEnd (.axis x)) s = .next { s with
      ports := s.ports.set x { s.ports.get x with tx := { inFlight := none, gap := 2 } } } := by
  rw [← Transmitter.finish_of_some (Option.ne_none_iff_exists'.mpr ⟨i, h⟩)]
  rfl

/-! ### The site port: responses, reports, return slots, telemetry -/

theorem exec_siteTransmitStart_free {t : State} (hflight : s.site.tx.inFlight = none)
    (hgap : s.site.tx.gap = 0) (hstart : s.startSite = t) : exec .siteTransmitStart s = .next t :=
  (congrArg Host.Outcome.next (if_pos (Transmitter.free_iff.mpr ⟨hflight, hgap⟩))).trans
    (congrArg Host.Outcome.next hstart)

theorem exec_siteTransmitStart_busy (h : s.site.tx.inFlight ≠ none ∨ s.site.tx.gap ≠ 0) :
    exec .siteTransmitStart s = .next s :=
  congrArg Host.Outcome.next (if_neg (Transmitter.not_free h))

theorem State.startSite_of_responses {r : Response} {rs : List Response}
    (h : s.site.responses = r :: rs) : s.startSite =
      { s with site.responses := rs, site.tx := startFrame (responseFrame s.site.address r) } := by
  simp only [State.startSite, h]

theorem State.startSite_of_reports {r : Report} {rs : List Report} (hresp : s.site.responses = [])
    (h : s.rep.queue = r :: rs) : s.startSite =
      { s with rep.queue := rs, site.tx := startFrame (reportFrame s.site.address s.rep.dest r) } := by
  simp only [State.startSite, hresp, h]

theorem State.startSite_of_returns {r : ReturnFrame} {rs : List ReturnFrame}
    (hresp : s.site.responses = []) (hrep : s.rep.queue = []) (h : s.site.returns = r :: rs) :
    s.startSite = { s with site.returns := rs, site.tx := startFrame r.frame } := by
  simp only [State.startSite, hresp, hrep, h]

section
variable {e : TelemetryEntry} {es : List TelemetryEntry} (hresp : s.site.responses = [])
  (hrep : s.rep.queue = []) (hret : s.site.returns = []) (h : s.site.telemetry = e :: es)
include hresp hrep hret h

theorem State.startSite_of_telemetry {d : Byte} (hdest : s.site.telemetryDest = some d) :
    s.startSite = { s with
      site.telemetry := es, site.tx := startFrame (telemetryFrame s.site.address d e) } := by
  simp only [State.startSite, hresp, hrep, hret, h, hdest]

theorem State.startSite_of_unaddressed_telemetry (hdest : s.site.telemetryDest = none) :
    s.startSite = { s with site.telemetry := [] } := by
  simp only [State.startSite, hresp, hrep, hret, h, hdest]

end

theorem exec_frameTransmissionEnd_site {i : InFlight} (h : s.site.tx.inFlight = some i) :
    exec (.frameTransmissionEnd .site) s =
      .next { s with site.tx := { inFlight := none, gap := 2 } } := by
  rw [← Transmitter.finish_of_some (Option.ne_none_iff_exists'.mpr ⟨i, h⟩)]
  rfl

end

/-- Settles O51: an equation for each source of each arbiter, by rank, behind the test of its line. -/
theorem arbitersStartFrames : Obligations.ArbitersStartFrames := by
  intro s x line port
  refine ⟨fun hflight hgap => ?axis, exec_axisTransmitStart_busy, fun f => exec_frameTransmissionEnd_axis,
    fun hflight hgap => ?site, exec_siteTransmitStart_busy, fun f => exec_frameTransmissionEnd_site⟩
  case axis =>
    exact ⟨fun f hc => exec_axisTransmitStart_free hflight hgap (AxisPort.start_of_control hc),
      fun f hc hp => exec_axisTransmitStart_free hflight hgap (AxisPort.start_of_setpoint hc hp),
      fun f fs hc hp hs => exec_axisTransmitStart_free hflight hgap (AxisPort.start_of_service hc hp hs)⟩
  case site =>
    have hstarts : ∀ {t : State}, s.startSite = t → exec .siteTransmitStart s = .next t :=
      exec_siteTransmitStart_free hflight hgap
    exact ⟨fun r rs h => hstarts (State.startSite_of_responses h),
      fun r rs hresp h => hstarts (State.startSite_of_reports hresp h),
      fun r rs hresp hrep h => hstarts (State.startSite_of_returns hresp hrep h),
      fun e es hresp hrep hret h =>
        ⟨fun d hd => hstarts (State.startSite_of_telemetry hresp hrep hret h hd),
          fun hd => hstarts (State.startSite_of_unaddressed_telemetry hresp hrep hret h hd)⟩⟩

/-! ## A sample outside the running states (R118 to R123) -/

/-- The states outside the running ones in which a SETPOINT follows a sample (R118). -/
def MotionState.holding (m : MotionState) : Prop := m = .idle ∨ m = .stopping ∨ m = .parking

theorem MotionState.running_of_holding {m : MotionState} (h : m.holding) : m.running = false := by
  rcases h with rfl | rfl | rfl <;> rfl

theorem MotionState.composing_of_holding {m : MotionState} (h : m.holding) : m.composing = false := by
  rcases h with rfl | rfl | rfl <;> rfl

theorem MotionState.running_of_quiet {m : MotionState} (h : m.quiet) : m.running = false := by
  rcases h with rfl | rfl <;> rfl

theorem MotionState.not_quiet_of_holding {m : MotionState} (h : m.holding) : m ≠ .parked ∧ m ≠ .alarm := by
  rcases h with rfl | rfl | rfl <;> decide

/-- The motion commanded in IDLE, STOPPING and PARKING: the hold position, or the plan's value (R119). -/
def State.heldMotion (s : State) (x : Lane) (t : Nat) : Motion :=
  if s.seq.motion = .idle then { pos := s.seq.hold.get x, vel := 0 } else s.planValue x t

section
variable {s : State} {x : Lane} {t : Nat} {tag : Byte}

theorem State.commandedAt_holding (hm : s.seq.motion.holding) :
    s.commandedAt x t = some (s.heldMotion x t) := by
  unfold State.commandedAt State.heldMotion
  rcases hm with hm | hm | hm <;> simp only [hm, if_true, reduceCtorEq, if_false]

/-- The soft limits clamp nothing outside the composing states (R123). -/
theorem State.commandedThen_holding (hm : s.seq.motion.holding) :
    s.commandedThen x t = some (s.heldMotion x t).pos := by
  unfold State.commandedThen
  rw [State.commandedAt_holding hm, MotionState.composing_of_holding hm]
  rfl

/-- Steps 3 to 9 with nothing to run and nothing to test: the motion commanded at the evaluation time is
converted and placed (R118, R119). -/
theorem State.driveSteps_holding (hm : s.seq.motion.holding) {c : Setpoint}
    (hc : s.convert x (s.heldMotion x (s.time.mount + (s.axis x).lead)) = c) :
    s.driveSteps x tag = (s.placeSetpoint x tag (some c), c.hold) := by
  refine State.driveSteps_of_command tag (p := some c) ?_
  rw [State.runningSteps_rest (MotionState.running_of_holding hm),
    State.commandStep_of_some (State.commandedAt_holding hm),
    State.softStep_plan (MotionState.composing_of_holding hm),
    State.convertStep_rest (MotionState.running_of_holding hm), hc]

/-- No SETPOINT is formed in PARKED and ALARM (R118). -/
theorem State.driveSteps_quiet (hm : s.seq.motion.quiet) : s.driveSteps x tag = (s, false) := by
  refine State.driveSteps_of_command tag (p := none) ?_
  rw [State.runningSteps_rest (MotionState.running_of_quiet hm),
    State.commandStep_of_none (State.commandedAt_rest s x _ hm)]

/-- No error is measured in PARKED and ALARM (R116, R123). -/
theorem State.errorStep_quiet {v : SampleFields} {hold : Bool} (hm : s.seq.motion.quiet) :
    s.errorStep x v hold = s := if_pos (hm.imp_right .inl)

/-- The SETPOINT that a commanded motion becomes, by whether its count lies in range and its angle within the
hard limits (R121, R122). -/
theorem State.placeSetpoint_convert (s : State) (x : Lane) (tag : Byte) (m : Motion) :
    s.placeSetpoint x tag (some (s.convert x m)) =
      if countInRange (s.axis x) m.pos && !s.guarded x m.pos then
        s.commanding x tag (countOf (s.axis x) m.pos) (velocityCounts (s.axis x) m.vel) 0
      else s.commanding x tag
        (clampInt (s.axis x).countMin (s.axis x).countMax (countOf (s.axis x) m.pos)) 0 1 := by
  unfold State.convert
  dsimp only
  cases countInRange (s.axis x) m.pos && !s.guarded x m.pos <;> rfl

/-- The HOLD marker of a converted motion (R121). -/
theorem State.convert_hold (s : State) (x : Lane) (m : Motion) :
    (s.convert x m).hold = !(countInRange (s.axis x) m.pos && !s.guarded x m.pos) := by
  unfold State.convert
  dsimp only
  cases countInRange (s.axis x) m.pos && !s.guarded x m.pos <;> rfl

variable {f : Frame} {v : SampleFields}

theorem exec_sample_quiet (h : s.heard x f v) (hm : s.seq.motion.quiet) :
    exec (.sample x f) s = .next ((s.recordSample x v).telemetryStep x) := by
  rw [exec_sample_heard h, State.driveSteps_quiet (s := s.recordSample x v) hm,
    State.errorStep_quiet (s := s.recordSample x v) hm]

/-- The state that steps 1 to 9 leave in IDLE, STOPPING and PARKING (R118). -/
def State.holdCommanded (s : State) (x : Lane) (f : Frame) (v : SampleFields) : State :=
  (s.recordSample x v).placeSetpoint x f.tag
    (some (s.convert x (s.heldMotion x (s.time.mount + (s.axis x).lead))))

/-- A sample in IDLE, STOPPING and PARKING: the SETPOINT placed, the error measured, the tests of step 10 and
telemetry (R118 to R123). -/
theorem exec_sample_holding {l : LatestSample} {angle : Int} (h : s.heard x f v)
    (hm : s.seq.motion.holding) (haxes : s.planner.axes ≠ none)
    (hl : (s.recordSample x v).servo.latest.get x = some l) (hangle : l.measured = some angle) :
    exec (.sample x f) s = .next
      ((((s.holdCommanded x f v).compared x l (s.heldMotion x (s.time.mount - v.age)).pos
          (some ((s.heldMotion x (s.time.mount - v.age)).pos - 256 * angle))
          (s.convert x (s.heldMotion x (s.time.mount + (s.axis x).lead))).hold).errorTests x
        ((s.heldMotion x (s.time.mount - v.age)).pos - 256 * angle) v.braked).telemetryStep x) := by
  obtain ⟨hparked, halarm⟩ := MotionState.not_quiet_of_holding hm
  rw [exec_sample_heard h, State.driveSteps_holding (s := s.recordSample x v) hm rfl]
  exact congrArg (fun u : State => Host.Outcome.next (u.telemetryStep x))
    (State.errorStep_measured (s := s.holdCommanded x f v) hl
      (State.commandedThen_holding (s := s.holdCommanded x f v) hm) haxes hparked halarm hangle)

end

/-- Settles O52: PARKED and ALARM command nothing; the other three states command the hold position or the
plan, and among them PARKING alone has a test. -/
theorem sampleAtRestCommandsHold : Obligations.SampleAtRestCommandsHold := by
  intro s x f v h now a l heard source m count fits sent commanded measured
  have hheard : s.recordSample x v = heard := by
    obtain ⟨-, -, -, -, -, hfault, hlimit, -⟩ := h
    unfold State.recordSample
    rw [hfault, hlimit]
  have hsent : s.holdCommanded x f v = sent := by
    unfold State.holdCommanded
    rw [hheard]
    exact State.placeSetpoint_convert heard x f.tag m
  have hholding : s.planner.axes ≠ none → s.seq.motion.holding → ∃ e, exec (.sample x f) s =
      .next ((measured.errorTests x e v.braked).telemetryStep x) := by
    intro haxes hm
    obtain ⟨table, htable⟩ := Option.ne_none_iff_exists'.mp haxes
    have hangle : l.measured = some (measuredAngle (table.get x) v.counts) :=
      congrArg (Option.map _) htable
    have hexec := exec_sample_holding (l := l) h hm haxes
      (by rw [hheard]; exact Lanes.get_set_self _ _ _) hangle
    have herror : l.measured.map (commanded - 256 * ·) =
        some (commanded - 256 * measuredAngle (table.get x) v.counts) :=
      congrArg (Option.map _) hangle
    have hmeasured : sent.compared x l commanded
        (some (commanded - 256 * measuredAngle (table.get x) v.counts)) (!fits) = measured :=
      congrArg (fun error => sent.compared x l commanded error (!fits)) herror.symm
    rw [hsent, State.convert_hold] at hexec
    exact ⟨_, hexec.trans (congrArg (fun u : State => Host.Outcome.next
      ((u.errorTests x _ v.braked).telemetryStep x)) hmeasured)⟩
  have hmotion : measured.seq.motion = s.seq.motion := by
    rw [show measured.seq = sent.seq from rfl, ← hsent]
    rfl
  refine ⟨fun hm => hheard ▸ exec_sample_quiet h hm, fun haxes hm => ?_, fun haxes hm => ?_⟩
  · obtain ⟨e, hexec⟩ := hholding haxes (hm.imp_right .inl)
    rwa [State.errorTests_none (by rw [hmotion]; rcases hm with hm | hm <;> rw [hm] <;> decide)] at hexec
  · obtain ⟨e, hexec⟩ := hholding haxes (.inr (.inr hm))
    rwa [State.errorTests_parking (hmotion.trans hm)] at hexec

end Sys2Proof.Machine

/-! # Guiding: obligations O36 to O39 -/

namespace Sys2Proof.Machine

/-! ## Moves of the guide state, exactly (R138, R140 to R142)

The model composes a move from an update of the context, the free-value counter and the report. With a
configuration loaded, each is the one update `State.guideMoved`. -/

/-- The active target's guide context replaced, with the GUIDE_STATE report where that changes the guide
state (R138). -/
def State.guideMoved (s : State) (a : Running) (c : GuideContext) (cause : GuideCause) : State :=
  { s with
    seq.active := some { a with ctx.guide := c }
    rep := if a.ctx.guide.state = c.state then s.rep else
      offerReport s.rep (.guideState a.ctx.guide.state c.state cause (wholeMas c.accAz)
        (wholeMas c.accEl) c.lastSeq) s.time.mount a.record.targetId }

/-- The lost count that an entry to LOST starts for a record under a configuration (R142). -/
def GuideConfig.lostCountOf (g : GuideConfig) (r : TargetRecord) : Option Count :=
  if r.guideMode = .required ∧ g.lostLimit ≠ 0 then
    some { elapsed := 0, length := g.lostLimit * 1000000 }
  else none

section
variable {s : State} {a : Running} {g : GuideConfig}

theorem State.mapGuide_of_active (ha : s.seq.active = some a) (f : GuideContext → GuideContext) :
    s.mapGuide f = { s with seq.active := some { a with ctx.guide := f a.ctx.guide } } :=
  State.mapContext_of_active ha _

theorem State.reportGuide_of_active (ha : s.seq.active = some a) (left : GuideState) (cause : GuideCause) :
    s.reportGuide left cause =
      s.report (.guideState left a.ctx.guide.state cause (wholeMas a.ctx.guide.accAz)
        (wholeMas a.ctx.guide.accEl) a.ctx.guide.lastSeq) a.record.targetId := by
  simp only [State.reportGuide, ha]

/-- An update that keeps the guide state is a move without a report. -/
theorem State.mapGuide_kept (ha : s.seq.active = some a) {f : GuideContext → GuideContext}
    (hf : a.ctx.guide.state = (f a.ctx.guide).state) (cause : GuideCause) :
    s.mapGuide f = s.guideMoved a (f a.ctx.guide) cause := by
  rw [State.mapGuide_of_active ha, State.guideMoved, if_pos hf]

/-- An update that changes the guide state, with the report of it, is a move. -/
theorem State.mapGuide_reported (ha : s.seq.active = some a) {f : GuideContext → GuideContext}
    (hf : a.ctx.guide.state ≠ (f a.ctx.guide).state) (cause : GuideCause) :
    (s.mapGuide f).reportGuide a.ctx.guide.state cause = s.guideMoved a (f a.ctx.guide) cause := by
  rw [State.mapGuide_of_active ha, State.reportGuide_of_active rfl, State.guideMoved, if_neg hf]
  rfl

/-- With a configuration loaded no free value is read (log 7). -/
theorem State.usedGuideFree_loaded (hg : s.guide = some g) : s.usedGuideFree = s := by
  rw [State.usedGuideFree_eq, if_neg (by rw [hg]; nofun)]

theorem State.guideWatch_loaded (hg : s.guide = some g) : s.guideWatch = g.watch := by
  simp only [State.guideWatch, hg]

theorem State.lostCount_loaded (ha : s.seq.active = some a) (hg : s.guide = some g) :
    s.lostCount = g.lostCountOf a.record := by
  simp only [State.lostCount, State.lostLimit, ha, hg, GuideConfig.lostCountOf]

/-- A good frame's move to LOCKED, reported where the state was another one (R138). -/
theorem State.lockGuide_loaded (ha : s.seq.active = some a) (hg : s.guide = some g) :
    s.lockGuide a.ctx.guide.state = s.guideMoved a { a.ctx.guide with
      state := .locked, watch := some { elapsed := 0, length := g.watch * 1000000 }, lost := none }
      .frame := by
  unfold State.lockGuide
  rw [State.guideWatch_loaded hg, State.usedGuideFree_loaded (s := s.mapGuide _) hg]
  by_cases hlocked : a.ctx.guide.state = .locked
  · rw [if_pos hlocked, State.mapGuide_kept ha hlocked]
  · rw [if_neg hlocked, State.mapGuide_reported ha hlocked]

theorem State.loseGuide_loaded (ha : s.seq.active = some a) (hg : s.guide = some g)
    (hlost : a.ctx.guide.state ≠ .lost) (cause : GuideCause) :
    s.loseGuide a.ctx.guide.state cause = s.guideMoved a { a.ctx.guide with
      state := .lost, watch := none, lost := g.lostCountOf a.record } cause := by
  unfold State.loseGuide
  rw [State.lostCount_loaded ha hg, State.usedGuideFree_loaded (s := s.mapGuide _) hg,
    State.mapGuide_reported ha hlost]

/-- Start Guiding from OFF: the hold is cleared, and ACQUIRING runs for three times the watch (R140). -/
theorem State.startGuide_off (ha : s.seq.active = some a) (hg : s.guide = some g)
    (hoff : a.ctx.guide.state = .off) :
    s.startGuide a.ctx.guide.state = s.guideMoved a { a.ctx.guide with
      hold := false, state := .acquiring, lastSeq := none
      watch := some { elapsed := 0, length := 3 * g.watch * 1000000 } } .start := by
  let released : State := { s with seq.active := some { a with ctx.guide.hold := false } }
  have hreleased : s.mapGuide (fun c => { c with hold := false }) = released :=
    State.mapGuide_of_active ha _
  have hmove := State.mapGuide_reported (s := released) rfl
    (f := fun c => { c with
      state := .acquiring, lastSeq := none
      watch := some { elapsed := 0, length := 3 * g.watch * 1000000 } })
    (show a.ctx.guide.state ≠ .acquiring by rw [hoff]; nofun) .start
  unfold State.startGuide State.startAcquiring
  rw [if_pos hoff, hreleased, State.guideWatch_loaded (s := released) hg,
    State.usedGuideFree_loaded (s := released.mapGuide _) hg, ← hoff]
  exact hmove

/-- Start Guiding in another guide state clears the hold alone (R140). -/
theorem State.startGuide_on (ha : s.seq.active = some a) (hon : a.ctx.guide.state ≠ .off) :
    s.startGuide a.ctx.guide.state =
      { s with seq.active := some { a with ctx.guide.hold := false } } := by
  unfold State.startGuide
  rw [if_neg hon, State.mapGuide_of_active ha]

/-- Stop Guiding's move to OFF, reported where the state was another one (R141). -/
theorem State.stopGuide_active (ha : s.seq.active = some a) (clear : Bool) :
    s.stopGuide a.ctx.guide.state clear = s.guideMoved a (a.ctx.guide.stopped clear) .stop := by
  unfold State.stopGuide
  by_cases hoff : a.ctx.guide.state = .off
  · rw [if_pos hoff, State.mapGuide_kept ha hoff]
  · rw [if_neg hoff, State.mapGuide_reported ha hoff]

/-! ## The guide requests (R133, R140, R141) -/

theorem State.guideAnswer_active (ha : s.seq.active = some a) :
    s.guideAnswer = guideCode a.ctx.guide.state :: accumulatorBytes a.ctx.guide := by
  simp only [State.guideAnswer, ha]

theorem configureGuideBody_loads {p : List Byte} (hg : guideConfigOf p s.site.address = some g) :
    configureGuideBody p s = accept { s with guide := some g } s.guideAnswer := by
  simp only [configureGuideBody, hg]

theorem startGuidingBody_starts (ha : s.seq.active = some a) (hm : s.seq.motion ≠ .slewing)
    (hg : s.guide = some g) : startGuidingBody [] s =
      accept (s.startGuide a.ctx.guide.state) (s.startGuide a.ctx.guide.state).guideAnswer := by
  simp [startGuidingBody, ha, hm, hg]

theorem stopGuidingBody_stops {p : List Byte} (hl : p.length = 1) (hp : natAt p 0 1 ≤ 1)
    (ha : s.seq.active = some a) : stopGuidingBody p s =
      accept (s.stopGuide a.ctx.guide.state (decide (natAt p 0 1 = 1)))
        (s.stopGuide a.ctx.guide.state (decide (natAt p 0 1 = 1))).guideAnswer := by
  simp [stopGuidingBody, hl, Nat.not_lt.mpr hp, ha]

end

/-- A guide context that Stop Guiding leaves, as R141 words it: the accumulator cleared where asked. -/
theorem GuideContext.stopped_decide (c : GuideContext) (P : Prop) [Decidable P] :
    c.stopped (decide P) = { c with
      state := .off, hold := true, watch := none, lost := none
      accAz := if P then 0 else c.accAz
      accEl := if P then 0 else c.accEl } := by
  simp only [GuideContext.stopped, decide_eq_true_eq]

/-- Settles O36: each request passes its checks, and the state it leaves is a move of the guide context. -/
theorem guideRequestsMoveGuideState : Obligations.GuideRequestsMoveGuideState := by
  intro s r rest p
  let taken : State := { s with site.requests := rest }
  refine ⟨?configure, ?start, ?stop⟩
  case configure =>
    intro g h hg
    refine exec_answers (u := { s with guide := some g }) h rfl rfl
      ((configureGuideBody_loads (s := taken) hg).trans ?_)
    rcases hactive : s.seq.active with _ | a <;> simp only [State.guideAnswer, taken, hactive] <;> rfl
  case start =>
    intro a g h ha hm hg acquiring acc
    have hbody := startGuidingBody_starts (s := taken) ha hm hg
    refine ⟨fun hoff => ?_, fun hon => ?_⟩
    · rw [State.startGuide_off (s := taken) ha hg hoff, State.guideAnswer_active rfl, State.guideMoved,
        hoff] at hbody
      exact exec_answers h rfl rfl hbody
    · rw [State.startGuide_on (s := taken) ha hon, State.guideAnswer_active rfl] at hbody
      exact exec_answers h rfl rfl hbody
  case stop =>
    intro a h hl hp ha az el
    have hbody := stopGuidingBody_stops (s := taken) hl hp ha
    rw [State.stopGuide_active (s := taken) ha, State.guideAnswer_active rfl,
      GuideContext.stopped_decide] at hbody
    exact exec_answers h rfl rfl hbody

/-! ## The tests of a GUIDE frame (R135) -/

/-- The running target with the sequence of an accepted frame (R135). -/
def Running.withSequence (a : Running) (n : Nat) : Running := { a with ctx.guide.lastSeq := some n }

/-- The state with the sequence of an accepted frame recorded (R135). -/
def State.sequenced (s : State) (a : Running) (n : Nat) : State :=
  { s with seq.active := some (a.withSequence n) }

theorem State.guideRuns_iff (s : State) :
    s.guideRuns = true ↔ s.seq.motion = .tracking ∨ s.seq.motion = .degraded := by
  simp only [State.guideRuns, Bool.or_eq_true, decide_eq_true_eq]

theorem guideOf_eq_some {p : List Byte} {v : GuideFields} : guideOf p = some v ↔ p.length = 13 ∧
    v = { targetId := natAt p 0 2, sequence := natAt p 2 2, azCorr := intAt p 4 4
          elCorr := intAt p 8 4, quality := natAt p 12 1 } := by
  simp only [guideOf, Option.ite_none_right_eq_some, Option.some.injEq, eq_comm (b := v)]

/-- A stale sequence stands 0, or 32,768 or more, ahead of the last one modulo 65,536 (R135). -/
theorem newerSequence_stale {last n : Nat} (h : (n + 65536 - last) % 65536 = 0 ∨
    32768 ≤ (n + 65536 - last) % 65536) : newerSequence (some last) n = false := by
  simp only [newerSequence, Bool.and_eq_false_iff, decide_eq_false_iff_not]
  omega

section
variable {s : State} {a : Running} {src : Byte} {v : GuideFields}

theorem State.acceptsGuide_eq_some {g : GuideConfig} : s.acceptsGuide a src v = some g ↔
    s.guide = some g ∧ src = g.guider ∧ v.targetId = a.record.targetId ∧
      (s.seq.motion = .tracking ∨ s.seq.motion = .degraded) ∧ a.ctx.guide.state ≠ .off ∧
      newerSequence a.ctx.guide.lastSeq v.sequence = true := by
  rw [← State.guideRuns_iff]
  unfold State.acceptsGuide
  cases hg : s.guide with
  | none => simp
  | some k =>
    simp only [Option.ite_none_right_eq_some, Option.some.injEq]
    constructor
    · rintro ⟨htests, rfl⟩
      exact ⟨rfl, htests⟩
    · rintro ⟨rfl, htests⟩
      exact ⟨htests, rfl⟩

/-- An accepted frame leaves its sequence, and a good one acts (R135). -/
theorem State.takeGuide_accepted {g : GuideConfig} {payload : List Byte} (hv : guideOf payload = some v)
    (ha : s.seq.active = some a) (hg : s.acceptsGuide a src v = some g) : s.takeGuide src payload =
      if g.qualityMin ≤ v.quality then
        (s.sequenced a v.sequence).goodGuide (a.withSequence v.sequence).ctx.guide g v
      else s.sequenced a v.sequence := by
  unfold State.takeGuide
  simp only [hv, ha, hg, State.mapGuide_of_active ha]
  rfl

theorem State.takeGuide_discarded {payload : List Byte} (h : ∀ v a, guideOf payload = some v →
    s.seq.active = some a → s.acceptsGuide a src v = none) : s.takeGuide src payload = s := by
  unfold State.takeGuide
  split
  · rename_i v a hv ha
    rw [h v a hv ha]
  · rfl

/-- A GUIDE frame of the part's own address reaches the Guide Unit (R135, R170). -/
theorem exec_guideFrame {f : Frame} (hrx : s.site.rx = .hunt) (hl : f.payload.length ≤ Config.payloadSize)
    (hd : f.dest = s.site.address) (hk : f.kind = 0x18) :
    exec (.guideFrame f) s = .next (s.takeGuide f.src f.payload) := by
  have hsort : s.sortSite f = s.takeGuide f.src f.payload := by
    unfold State.sortSite
    rw [if_pos (.inl hd), if_neg (by rw [hk]; decide), if_pos ⟨hk, hd⟩]
  exact congrArg Host.Outcome.next ((State.receiveLine_siteFrame hrx hl).trans hsort)

end

/-- Settles O38: each failing test leaves `State.acceptsGuide` without a configuration. -/
theorem unfitGuideFramesAreDiscarded : Obligations.UnfitGuideFramesAreDiscarded := by
  intro s f hrx hl hd hk hunfit
  rw [exec_guideFrame hrx hl hd hk, State.hunting_self hrx]
  refine congrArg Host.Outcome.next (State.takeGuide_discarded fun v a hv ha => ?_)
  obtain ⟨hlength, rfl⟩ := guideOf_eq_some.mp hv
  refine Option.eq_none_iff_forall_ne_some.mpr fun g haccepts => ?_
  obtain ⟨hg, hsrc, hid, hmotion, hstate, hnewer⟩ := State.acceptsGuide_eq_some.mp haccepts
  rcases hunfit with hlen | hnone | hempty | ⟨htracking, hdegraded⟩ | ⟨k, hloaded, hother⟩ |
    ⟨b, hb, hcontext⟩
  · exact hlen hlength
  · exact nomatch hg.symm.trans hnone
  · exact nomatch ha.symm.trans hempty
  · exact hmotion.elim htracking hdegraded
  · cases hg.symm.trans hloaded
    exact hother hsrc
  · cases ha.symm.trans hb
    rcases hcontext with hother | hoff | ⟨last, hlast, hstale⟩
    · exact hother hid
    · exact hstate hoff
    · rw [hlast, newerSequence_stale hstale] at hnewer
      exact nomatch hnewer

/-! ## Good GUIDE frames (R136 to R138, R148) -/

/-- The lanes that reject a frame's steps, from an accumulator (R136). -/
def GuideFields.rejectedBy (v : GuideFields) (c : GuideContext) (g : GuideConfig) : Lanes Bool :=
  rejectingLanes c g (g.azGain * v.azCorr) (g.elGain * v.elCorr)

/-- A guide context after a good frame: both lanes stepped, the state LOCKED, the watch started again
and the lost count stopped (R136, R138, R142). -/
def GuideContext.guidedBy (c : GuideContext) (g : GuideConfig) (v : GuideFields) : GuideContext :=
  { c with
    state := .locked
    accAz := steppedSum c.accAz (g.azGain * v.azCorr) g.azClamp g.azLimit
    accEl := steppedSum c.accEl (g.elGain * v.elCorr) g.elClamp g.elLimit
    watch := some { elapsed := 0, length := g.watch * 1000000 }, lost := none }

/-- A GUIDE_REJECT occurrence flagged, naming the lanes that reject (R136, R148). -/
def State.guideFlagged (s : State) (a : Running) (g : GuideConfig) (v : GuideFields) : State :=
  s.flagged a .guideReject (laneSetByte (v.rejectedBy a.ctx.guide g)) 0

/-- A GUIDE_REJECT occurrence flagged, and the guide state LOST (R136, R138). -/
def State.guideRejected (s : State) (a : Running) (g : GuideConfig) (v : GuideFields) : State :=
  if a.ctx.guide.state = .lost then s.guideFlagged a g v
  else (s.guideFlagged a g v).guideMoved (a.withFlag 4) { a.ctx.guide with
    state := .lost, watch := none, lost := g.lostCountOf a.record } .reject

section
variable {s : State} {a : Running} {g : GuideConfig} {v : GuideFields}

theorem steppedSum_added {acc step : Int} {clamp limit : Nat} (h : stepRejected acc step clamp limit = false) :
    steppedSum acc step clamp limit = acc + step := by
  rw [steppedSum, h]
  rfl

theorem State.addSteps_lockGuide (ha : s.seq.active = some a) (hg : s.guide = some g) :
    (s.addSteps g (g.azGain * v.azCorr) (g.elGain * v.elCorr)).lockGuide a.ctx.guide.state =
      s.guideMoved a (a.ctx.guide.guidedBy g v) .frame := by
  let stepped : Running := { a with ctx.guide := { a.ctx.guide with
    accAz := steppedSum a.ctx.guide.accAz (g.azGain * v.azCorr) g.azClamp g.azLimit
    accEl := steppedSum a.ctx.guide.accEl (g.elGain * v.elCorr) g.elClamp g.elLimit } }
  rw [State.addSteps, State.mapGuide_of_active ha]
  exact State.lockGuide_loaded (s := { s with seq.active := some stepped }) rfl hg

/-- A good frame that no lane rejects steps and locks (R136). -/
theorem State.goodGuide_clean (ha : s.seq.active = some a) (hg : s.guide = some g)
    (h : (v.rejectedBy a.ctx.guide g).any = false) :
    s.goodGuide a.ctx.guide g v = s.guideMoved a (a.ctx.guide.guidedBy g v) .frame :=
  (if_pos h).trans (State.addSteps_lockGuide ha hg)

/-- A rejected frame is flagged, and the mask decides what follows (R136, R148). -/
theorem State.goodGuide_rejected (ha : s.seq.active = some a) (h : (v.rejectedBy a.ctx.guide g).any = true) :
    s.goodGuide a.ctx.guide g v =
      if marks s.cond.mask .guideReject then
        ((s.guideFlagged a g v).addSteps g (g.azGain * v.azCorr) (g.elGain * v.elCorr)).lockGuide
          a.ctx.guide.state
      else
        (if a.ctx.guide.state = .lost then s.guideFlagged a g v
          else (s.guideFlagged a g v).loseGuide a.ctx.guide.state .reject).endActive .faulted
          (.condition .guideReject) := by
  rw [State.guideFlagged, ← State.flagCondition_eq_flagged ha]
  exact if_neg fun hnone => Bool.false_ne_true (hnone.symm.trans h)

/-- A rejected frame whose condition is masked still steps and locks (R136). -/
theorem State.goodGuide_masked (ha : s.seq.active = some a) (hg : s.guide = some g)
    (h : (v.rejectedBy a.ctx.guide g).any = true) (hm : marks s.cond.mask .guideReject = true) :
    s.goodGuide a.ctx.guide g v =
      (s.guideFlagged a g v).guideMoved (a.withFlag 4) (a.ctx.guide.guidedBy g v) .frame := by
  rw [State.goodGuide_rejected ha h, if_pos hm]
  exact State.addSteps_lockGuide (s := s.guideFlagged a g v) (a := a.withFlag 4) rfl hg

/-- A rejected frame whose condition is unmasked makes the state LOST and ends the target (R136, R148). -/
theorem State.goodGuide_unmasked (ha : s.seq.active = some a) (hg : s.guide = some g)
    (h : (v.rejectedBy a.ctx.guide g).any = true) (hm : marks s.cond.mask .guideReject = false) :
    s.goodGuide a.ctx.guide g v =
      (s.guideRejected a g v).endActive .faulted (.condition .guideReject) := by
  rw [State.goodGuide_rejected ha h, if_neg (by rw [hm]; decide), State.guideRejected]
  by_cases hlost : a.ctx.guide.state = .lost
  · rw [if_pos hlost, if_pos hlost]
  · rw [if_neg hlost, if_neg hlost]
    exact congrArg (State.endActive · _ _)
      (State.loseGuide_loaded (s := s.guideFlagged a g v) (a := a.withFlag 4) rfl hg hlost _)

end

/-- Settles O37: the frame is accepted, and what it does is one of the cases of `State.goodGuide`. -/
theorem guideFrameStepsAccumulator : Obligations.GuideFrameStepsAccumulator := by
  intro s f a g v hrx hd hk hv ha hg hsrc hid hmotion hstate hnewer azStep elStep azBad elBad clip locked
  let heard := a.withSequence v.sequence
  let t := s.sequenced a v.sequence
  have hlength : f.payload.length ≤ Config.payloadSize := by
    rw [(guideOf_eq_some.mp hv).1]
    decide
  have htaken := State.takeGuide_accepted hv ha
    (State.acceptsGuide_eq_some.mpr ⟨hg, hsrc, hid, hmotion, hstate, hnewer⟩)
  have hany : (v.rejectedBy heard.ctx.guide g).any = (azBad || elBad) := Bool.or_false _
  rw [exec_guideFrame hrx hlength hd hk, htaken, ← hrx]
  refine ⟨?poor, ?clean, ?masked, ?unmasked⟩
  case poor =>
    intro hpoor
    rw [if_neg (Nat.not_le.mpr hpoor)]
    rfl
  case clean =>
    intro hgood haz hel az el
    have haz' : steppedSum a.ctx.guide.accAz azStep g.azClamp g.azLimit = az := steppedSum_added haz
    have hel' : steppedSum a.ctx.guide.accEl elStep g.elClamp g.elLimit = el := steppedSum_added hel
    rw [if_pos hgood, State.goodGuide_clean (s := t) (a := heard) rfl hg (by rw [hany, haz, hel]; rfl),
      ← haz', ← hel']
    rfl
  case masked =>
    intro hgood hbad hm az el raised
    rw [if_pos hgood, State.goodGuide_masked (s := t) (a := heard) rfl hg (hany.trans hbad) hm,
      State.guideFlagged, State.flagged, show t.cond.mask.getLsbD Condition.guideReject.bit = true from hm]
    rfl
  case unmasked =>
    intro hgood hbad hm _ flagged b u
    rw [if_pos hgood, State.goodGuide_unmasked (s := t) (a := heard) rfl hg (hany.trans hbad) hm]
    refine ⟨_, rfl, ?_⟩
    have hrejected : t.guideRejected heard g v = u := by
      by_cases hlost : a.ctx.guide.state = .lost
      · rw [State.guideRejected, if_pos (by exact hlost)]
        simp only [u, b, if_pos hlost]
        rfl
      · rw [State.guideRejected, if_neg (by exact hlost), State.guideMoved, if_neg (by exact hlost)]
        simp only [u, b, if_neg hlost]
        rfl
    rw [hrejected]
    exact State.endActiveFrom_ended (s := u) rfl _ _ _

/-! ## The guide timers (R138, R142) -/

section
variable {s : State} {a : Running}

theorem State.guideWatchDue_iff {w : Count} (ha : s.seq.active = some a)
    (hmotion : s.seq.motion = .tracking ∨ s.seq.motion = .degraded)
    (hstate : a.ctx.guide.state = .acquiring ∨ a.ctx.guide.state = .locked)
    (hw : a.ctx.guide.watch = some w) : s.guideWatchDue = true ↔ w.length ≤ w.elapsed := by
  simp [State.guideWatchDue, ha, s.guideRuns_iff.mpr hmotion, hstate, hw, Count.reached]

theorem State.guideLostDue_iff {n : Count} (ha : s.seq.active = some a)
    (hmotion : s.seq.motion = .tracking ∨ s.seq.motion = .degraded) (hlost : a.ctx.guide.state = .lost)
    (hn : a.ctx.guide.lost = some n) : s.guideLostDue = true ↔ n.length ≤ n.elapsed := by
  simp [State.guideLostDue, ha, s.guideRuns_iff.mpr hmotion, hlost, hn, Count.reached]

end

/-- Settles O39: the watch's expiry is a move to LOST, and the lost limit ends the active target. -/
theorem guideTimersLoseTarget : Obligations.GuideTimersLoseTarget := by
  intro s a ha hmotion
  refine ⟨fun g w hstate hw hg => ?_, fun n hlost hn => ?_⟩
  · have hdue := State.guideWatchDue_iff ha hmotion hstate hw
    have hnot : a.ctx.guide.state ≠ .lost := fun h => by rw [h] at hstate; exact hstate.elim nofun nofun
    refine ⟨fun hreached => congrArg Host.Outcome.next ?_, fun hearly => congrArg Host.Outcome.next ?_⟩
    · rw [if_pos (hdue.mpr hreached), State.expireGuideWatch, ha]
      dsimp only
      rw [State.loseGuide_loaded ha hg hnot, State.guideMoved, if_neg hnot]
      rfl
    · exact if_neg fun h => absurd (hdue.mp h) (Nat.not_le.mpr hearly)
  · have hdue := State.guideLostDue_iff ha hmotion hlost hn
    refine ⟨fun hreached => ⟨s.endActive .faulted .guideLost, congrArg Host.Outcome.next ?_,
      State.endActiveFrom_ended ha _ _ _⟩, fun hearly => congrArg Host.Outcome.next ?_⟩
    · exact if_pos (hdue.mpr hreached)
    · exact if_neg fun h => absurd (hdue.mp h) (Nat.not_le.mpr hearly)

end Sys2Proof.Machine

/-! # Conditions, masks and alarms: obligations O8, O40 -/

namespace Sys2Proof.Machine

set_option Elab.async false

/-! ## Set Masks and Clear Conditions (R146, R151) -/

section
variable {s : State} {b : Byte}

theorem conditionByte_eq (hb : b.getLsbD 7 = false) : conditionByte [b] = some b :=
  if_neg (by rw [hb]; decide)

theorem setMasksBody_replaces (hb : b.getLsbD 7 = false) :
    setMasksBody [b] s = accept { s with cond.mask := b } [b, pendingSet s.flags b] := by
  simp only [setMasksBody, conditionByte_eq hb]

theorem clearConditionsBody_clears {a : Running} (hb : b.getLsbD 7 = false) (ha : s.seq.active = some a) :
    clearConditionsBody [b] s =
      accept { s with seq.active := some { a with ctx := a.ctx.clearFlags b } }
        (natBytes 2 a.record.targetId ++ [a.ctx.flags &&& ~~~b]) := by
  simp only [clearConditionsBody, conditionByte_eq hb, ha, State.mapContext_of_active ha]

theorem clearConditionsBody_noTarget (hb : b.getLsbD 7 = false) (ha : s.seq.active = none) :
    clearConditionsBody [b] s = refuse s .noTarget := by
  simp only [clearConditionsBody, conditionByte_eq hb, ha]

end

/-- Settles O40: each body is one update of the state with the request taken, which no occurrence follows. -/
theorem masksAndFlagsAreReplaced : Obligations.MasksAndFlagsAreReplaced := fun s _ rest b hb =>
  ⟨fun h => exec_answers (u := { s with cond.mask := b }) h rfl rfl
      (setMasksBody_replaces (s := { s with site.requests := rest }) hb),
    fun a h ha => exec_answers (u := { s with seq.active := some { a with ctx := a.ctx.clearFlags b } }) h rfl rfl
      (clearConditionsBody_clears (s := { s with site.requests := rest }) hb ha),
    fun h ha => exec_answers h rfl rfl
      (clearConditionsBody_noTarget (s := { s with site.requests := rest }) hb ha)⟩

/-! ## The alarm record and PERMIT (R154 to R156)

Both invariants of O8 read the motion state, the alarm record and PERMIT alone. An operation guards them in one of
four ways: it leaves the three as they are; it moves the part between states that are not ALARM; it raises an alarm;
or it clears the alarm with PERMIT high. Nothing else leads out of ALARM, since what
moves the part asks for an active target, or for a motion state that is not ALARM. -/

/-- In ALARM the slot is empty: what the two invariants need of R47. -/
def State.alarmVacant (s : State) : Prop := s.seq.motion = .alarm → s.seq.active = none

theorem State.slotMatches.alarmVacant {s : State} (h : s.slotMatches) : s.alarmVacant := fun hm =>
  Option.isNone_iff_eq_none.mp (Option.isSome_eq_false_iff.mp (h.trans (congrArg MotionState.running hm)))

/-- A state from which the Sequencer may move the part: not ALARM, or one whose active target ends. -/
def State.mayMove (s : State) : Prop := s.seq.motion = .alarm → s.seq.active.isSome = true

theorem State.mayMove_of_motion {s : State} (h : s.seq.motion ≠ .alarm) : s.mayMove := fun hm => absurd hm h

theorem State.mayMove_of_active {s : State} (h : s.seq.active.isSome = true) : s.mayMove := fun _ => h

/-- Where the slot is empty in ALARM, such a state is not ALARM. -/
theorem State.mayMove.not_alarm {s : State} (h : s.mayMove) (hv : s.alarmVacant) : s.seq.motion ≠ .alarm :=
  fun hm => by simpa [hv hm] using h hm

/-- The alarm record and PERMIT, each with its own invariant, agree with the motion state wherever they did. -/
structure State.Guards (s t : State) : Prop where
  vacant : s.alarmVacant → t.alarmVacant
  record : s.alarmVacant → s.alarmMatches → t.alarmMatches
  permit : s.alarmVacant → s.permitMatches → t.permitMatches

section
variable {s t u : State}

theorem State.Guards.refl (s : State) : s.Guards s := ⟨id, fun _ => id, fun _ => id⟩

theorem State.Guards.trans (h : s.Guards t) (k : t.Guards u) : s.Guards u where
  vacant := k.vacant ∘ h.vacant
  record hv := k.record (h.vacant hv) ∘ h.record hv
  permit hv := k.permit (h.vacant hv) ∘ h.permit hv

/-- An operation that leaves the motion state, the slot's occupation, the alarm record and PERMIT alone. -/
theorem State.Guards.of_fields (motion : t.seq.motion = s.seq.motion := by rfl)
    (active : t.seq.active.isSome = s.seq.active.isSome := by rfl)
    (first : t.cond.first = s.cond.first := by rfl) (causeSet : t.cond.causeSet = s.cond.causeSet := by rfl)
    (permit : t.permit = s.permit := by rfl) : s.Guards t where
  vacant hv hm := by
    rw [hv (motion.symm.trans hm)] at active
    exact Option.isNone_iff_eq_none.mp (Option.isSome_eq_false_iff.mp active)
  record _ h := by
    unfold State.alarmMatches
    rw [first, causeSet, motion]
    exact h
  permit _ h := by
    unfold State.permitMatches
    rw [permit, motion]
    exact h

/-- A change of the active target that leaves it in the slot. -/
theorem State.Guards.of_running (f : Running → Running) (motion : t.seq.motion = s.seq.motion := by rfl)
    (active : t.seq.active = s.seq.active.map f := by rfl) (first : t.cond.first = s.cond.first := by rfl)
    (causeSet : t.cond.causeSet = s.cond.causeSet := by rfl) (permit : t.permit = s.permit := by rfl) :
    s.Guards t :=
  .of_fields motion (active ▸ Option.isSome_map) first causeSet permit

/-- An operation that changes nothing. -/
theorem State.Guards.of_eq (h : t = s) : s.Guards t := h ▸ .refl s

/-- A move from a state that may be left to one that is not ALARM: there the record is empty and stays so, and
PERMIT is high and stays so. -/
theorem State.Guards.of_moved (mayMove : s.mayMove) (away : t.seq.motion ≠ .alarm)
    (cond : t.cond = s.cond) (permit : t.permit = s.permit) : s.Guards t where
  vacant _ hm := absurd hm away
  record hv h := by
    obtain ⟨hfirst, hset⟩ := h
    have hs := mayMove.not_alarm hv
    rw [decide_eq_false hs] at hfirst
    unfold State.alarmMatches
    rw [cond, decide_eq_false away]
    exact ⟨hfirst, fun _ => hset hs⟩
  permit hv h := fun hlow => absurd (h (permit.symm.trans hlow)) (mayMove.not_alarm hv)

theorem State.Guards.of_agrees (agrees : s.Agrees t) (mayMove : s.mayMove) (away : t.seq.motion ≠ .alarm) :
    s.Guards t :=
  .of_moved mayMove away agrees.cond agrees.permit

theorem MotionState.ne_alarm_of_running {m : MotionState} (h : m.running = true) : m ≠ .alarm :=
  fun hm => by rw [hm] at h; cases h

theorem MotionState.ne_alarm_of_composing {m : MotionState} (h : m.composing = true) : m ≠ .alarm :=
  MotionState.ne_alarm_of_running (MotionState.running_of_composing h)

theorem State.slews.not_alarm (h : t.slews) : t.seq.motion ≠ .alarm := by
  rw [h.1]
  nofun

theorem State.ends.not_alarm (h : t.ends) : t.seq.motion ≠ .alarm := by
  rcases h with h | ⟨hm, -⟩ | ⟨hm, -⟩
  · exact h.not_alarm
  · rw [hm]
    nofun
  · rw [hm]
    nofun

/-- A move among the composing states, none of which is ALARM. -/
theorem State.Guards.of_moves (h : s.moves t) : s.Guards t := by
  obtain ⟨hagrees, -, hactive, hm | ⟨hs, ht⟩⟩ := h
  · exact .of_fields hm hactive (congrArg _ hagrees.cond) (congrArg _ hagrees.cond) hagrees.permit
  · exact .of_agrees hagrees (State.mayMove_of_motion (MotionState.ne_alarm_of_composing hs))
      (MotionState.ne_alarm_of_composing ht)

end

/-! ### The Sequencer's operations -/

section
variable (s : State)

theorem State.enter_guards {m : MotionState} (hs : s.mayMove) (hm : m ≠ .alarm) : s.Guards (s.enter m) :=
  .of_agrees (s.enter_agrees m) hs (by rwa [State.enter_motion])

/-- No head is activated outside IDLE (R51). -/
theorem State.testActivation_guards : s.Guards s.testActivation := by
  by_cases hm : s.seq.motion = .alarm
  · refine .of_eq (activationTest_silent _ _ _ _ fun r _ _ => ?_)
    simp [State.mayActivate, hm]
  · obtain ⟨hagrees, ⟨hmotion, -⟩ | hslews⟩ := activationTest_spec false s.holdMotion s.seq.queue.length s
    · exact .of_agrees hagrees (State.mayMove_of_motion hm) (fun ht => hm (hmotion.symm.trans ht))
    · exact .of_agrees hagrees (State.mayMove_of_motion hm) hslews.not_alarm

theorem State.retestIfHeadChanged_guards (before : State) : s.Guards (s.retestIfHeadChanged before) := by
  unfold State.retestIfHeadChanged
  split
  · exact .refl s
  · exact s.testActivation_guards

/-- An entry to IDLE leads on to a slew at most (R48, R51). -/
theorem State.enterIdle_motion (hold : Lanes Int) : (s.enterIdle hold).seq.motion ≠ .alarm := by
  rcases s.enterIdle_spec hold with h | ⟨hm, -⟩
  · exact h.not_alarm
  · rw [hm]
    nofun

theorem State.enterIdle_guards (hs : s.mayMove) (hold : Lanes Int) : s.Guards (s.enterIdle hold) :=
  .of_moved hs (s.enterIdle_motion hold) (s.enterIdle_agrees hold).cond (s.enterIdle_agrees hold).permit

theorem State.startPark_guards (hs : s.mayMove) (o : Lanes Motion) : s.Guards (s.startPark o) := by
  obtain ⟨hagrees, hm, -⟩ := s.startPark_spec o
  exact .of_agrees hagrees hs (by rw [hm]; nofun)

theorem State.startStop_guards (hs : s.mayMove) (o : Lanes Motion) : s.Guards (s.startStop o) := by
  obtain ⟨hagrees, hm, -⟩ := s.startStop_spec o
  exact .of_agrees hagrees hs (by rw [hm]; nofun)

theorem State.haltRun_guards (hs : s.mayMove) (why : Reason) : s.Guards (s.haltRun why) := by
  obtain ⟨hagrees, hm, -⟩ := s.haltRun_spec why
  exact .of_agrees hagrees hs (by rw [hm]; nofun)

theorem State.endActiveFrom_guards (hs : s.mayMove) (o : Lanes Motion) (v : Verdict) (why : Reason) :
    s.Guards (s.endActiveFrom o v why) :=
  have ⟨hagrees, hends⟩ := s.endActiveFrom_spec o v why
  .of_agrees hagrees hs hends.not_alarm

/-- The active target ends, and with the slot occupied the part is not in ALARM. -/
theorem State.endActive_guards (ha : s.seq.active.isSome = true) (v : Verdict) (why : Reason) :
    s.Guards (s.endActive v why) :=
  s.endActiveFrom_guards (State.mayMove_of_active ha) _ v why

theorem State.departAllQueued_guards (rs : List TargetRecord) (v : Verdict) (why : Reason) :
    s.Guards (s.departAllQueued rs v why) := by
  obtain ⟨starved, startHanded, expiryHanded, he⟩ := State.departAllQueued_eq v why rs s
  rw [he]
  exact .of_fields

/-- No condition arises with the slot empty, so a fault taken ends a target (R148). -/
theorem State.raiseCondition_guards (c : Condition) (q : Byte) (n : Nat) :
    s.Guards (s.raiseCondition c q n) := by
  cases ha : s.seq.active with
  | none =>
    rw [State.raiseCondition_masked q n (.inr ha)]
    exact .of_moves (s.flagCondition_moves c q n)
  | some a =>
    obtain ⟨hagrees, hmoves | hends⟩ := s.raiseCondition_spec c q n
    · exact .of_moves hmoves
    · exact .of_agrees hagrees (State.mayMove_of_active (by rw [ha]; rfl)) hends.not_alarm

theorem State.addCause_guards (c : DegradeCause) (x : Lane) : s.Guards (s.addCause c x) :=
  .of_moves (s.addCause_moves c x)

theorem State.removeCause_guards (c : DegradeCause) (x : Lane) : s.Guards (s.removeCause c x) :=
  .of_moves (s.removeCause_moves c x)

/-- An alarm joins the cause set of ALARM, or enters it with a first cause and the slot empty (R72, R155). -/
theorem State.raiseAlarm_guards (k : AlarmKind) (x : Option Lane) : s.Guards (s.raiseAlarm k x) := by
  refine ⟨fun hv => ?vacant, fun _ h => ?record, fun _ _ _ => s.raiseAlarm_motion k x⟩ <;>
    unfold State.raiseAlarm
  case vacant =>
    split
    · split <;> exact hv
    · exact fun _ => (State.enterAlarm_spec _ k x).2.1
  case record =>
    split
    · rename_i hm
      split
      · exact h
      · exact ⟨h.1, fun hne => absurd hm hne⟩
    · obtain ⟨hm, -, -, -, -, -, -, -, hcond, -⟩ := State.enterAlarm_spec (State.report
        { s with
          cond.first := some { kind := k, axis := x, time := s.time.mount }
          cond.causeSet := [(k, x)] } (.alarmRaised k x true) s.activeId) k x
      refine ⟨?_, fun hne => absurd hm hne⟩
      rw [hcond, hm]
      rfl

/-! ### Guiding (chapter 7) -/

theorem State.reportGuide_guards (left : GuideState) (cause : GuideCause) :
    s.Guards (s.reportGuide left cause) := by
  obtain ⟨rep, he⟩ := s.reportGuide_eq left cause
  rw [he]
  exact .of_fields

theorem State.mapGuide_guards (f : GuideContext → GuideContext) : s.Guards (s.mapGuide f) := .of_running _

theorem State.startAcquiring_guards (cause : GuideCause) : s.Guards (s.startAcquiring cause) := by
  obtain ⟨rep, freeIndex, f, -, he⟩ := s.startAcquiring_eq cause
  rw [he]
  exact .of_running f

theorem State.loseGuide_guards (left : GuideState) (cause : GuideCause) :
    s.Guards (s.loseGuide left cause) := by
  obtain ⟨rep, freeIndex, f, -, he⟩ := s.loseGuide_eq left cause
  rw [he]
  exact .of_running f

theorem State.lockGuide_guards (left : GuideState) : s.Guards (s.lockGuide left) := by
  have hlocked : ∀ f, s.Guards (s.mapGuide f).usedGuideFree := fun f => (s.mapGuide_guards f).trans .of_fields
  unfold State.lockGuide
  dsimp only
  split
  · exact hlocked _
  · exact (hlocked _).trans (State.reportGuide_guards _ _ _)

theorem State.startGuide_guards (left : GuideState) : s.Guards (s.startGuide left) := by
  unfold State.startGuide
  dsimp only
  split
  · exact (s.mapGuide_guards _).trans (State.startAcquiring_guards _ _)
  · exact s.mapGuide_guards _

theorem State.stopGuide_guards (left : GuideState) (clear : Bool) : s.Guards (s.stopGuide left clear) := by
  unfold State.stopGuide
  dsimp only
  split
  · exact s.mapGuide_guards _
  · exact (s.mapGuide_guards _).trans (State.reportGuide_guards _ _ _)

/-- A rejected frame that is a fault ends the target whose guide context it moved (R136). -/
theorem State.goodGuide_guards (ha : s.seq.active.isSome = true) (c : GuideContext) (g : GuideConfig)
    (f : GuideFields) : s.Guards (s.goodGuide c g f) := by
  have hlocked : ∀ (t : State) (azStep elStep : Int),
      t.Guards ((t.addSteps g azStep elStep).lockGuide c.state) :=
    fun t _ _ => (t.mapGuide_guards _).trans (State.lockGuide_guards _ _)
  have hflagged := fun q => State.Guards.of_moves (s.flagCondition_moves .guideReject q 0)
  have hactive := fun q => (congrArg Gait.active (s.flagCondition_gait .guideReject q 0)).trans ha
  unfold State.goodGuide
  dsimp only
  split
  · exact hlocked _ _ _
  · split
    · exact (hflagged _).trans (hlocked _ _ _)
    · split
      · exact (hflagged _).trans (State.endActive_guards _ (hactive _) _ _)
      · refine ((hflagged _).trans (State.loseGuide_guards _ _ _)).trans (State.endActive_guards _ ?_ _ _)
        exact (congrArg Gait.active (State.loseGuide_gait _ _ _)).trans (hactive _)

theorem State.takeGuide_guards (src : Byte) (payload : List Byte) : s.Guards (s.takeGuide src payload) := by
  unfold State.takeGuide
  split
  · rename_i ha
    split
    · exact .refl s
    · have hactive : s.seq.active.isSome = true := by rw [ha]; rfl
      have hmapped := fun f => s.mapGuide_guards f
      dsimp only
      split
      · exact (hmapped _).trans (State.goodGuide_guards _
          ((congrArg Gait.active (s.mapGuide_gait _)).trans hactive) _ _ _)
      · exact hmapped _
  · exact .refl s

theorem State.expireGuideWatch_guards : s.Guards s.expireGuideWatch := by
  unfold State.expireGuideWatch
  split
  · exact .refl s
  · exact s.loseGuide_guards _ _

/-! ### The clock (chapter 9) -/

theorem State.passTime_guards (d : Nat) : s.Guards (s.passTime d) := by
  obtain ⟨f, -, he⟩ := s.passTime_eq d
  rw [he]
  exact .of_running f

theorem State.handExpiries_guards : s.Guards s.handExpiries := by
  rw [State.handExpiries_eq]
  exact .of_fields

theorem State.setClock_guards (value : Nat) : s.Guards (s.setClock value) := by
  have hmoved : s.Guards
      (if s.time.mount ≤ value then s.passTime (value - s.time.mount) else s.turnBack value) := by
    split
    · exact s.passTime_guards _
    · exact .of_fields
  exact (hmoved.trans .of_fields).trans (State.handExpiries_guards _)

theorem State.afterClock_guards : s.Guards s.afterClock :=
  (s.departAllQueued_guards _ _ _).trans (State.testActivation_guards _)

theorem State.pulseLoad_guards (value : Nat) : s.Guards (s.pulseLoad value) := by
  have hunarmed : s.Guards { s with time.load := none } := .of_fields
  unfold State.pulseLoad
  dsimp only
  split
  · exact .of_fields
  · exact ((hunarmed.trans (State.setClock_guards _ value)).trans .of_fields).trans
      (State.afterClock_guards _)

theorem State.tick_guards : s.Guards s.tick := by
  have hpassed : s.Guards
      (if s.time.mount < Config.mountTimeMax then (s.passTime 1).handExpiries else s) := by
    split
    · exact (s.passTime_guards 1).trans (State.handExpiries_guards _)
    · exact .refl s
  exact hpassed.trans .of_fields

end

/-! ### The steps of a sample (R118) -/

section
variable (s : State) (x : Lane)

theorem State.checkDrive_guards (f : SampleFields) : s.Guards (s.checkDrive x f) := by
  have hfault : s.Guards (if f.fault then s.raiseAlarm .driveFault (some x) else s) := by
    split
    · exact s.raiseAlarm_guards _ _
    · exact .refl s
  unfold State.checkDrive
  dsimp only
  split
  · exact hfault.trans (State.raiseAlarm_guards _ _ _)
  · exact hfault

theorem State.evaluateSample_guards : s.Guards s.evaluateSample.1 := by
  unfold State.evaluateSample
  split
  · exact .refl s
  · rename_i ha
    split
    · exact .refl s
    · exact s.endActive_guards (by rw [ha]; rfl) _ _

theorem State.occur_guards (c : Condition) : s.Guards (s.occur c x).1 := s.raiseCondition_guards _ _ _

/-- An occurrence that is not taken as a fault contributes its cause (R58, R148). -/
theorem State.occur_cause_guards (c : Condition) (d : DegradeCause) :
    s.Guards ((s.occur c x).1.addCause d x) := (s.occur_guards x c).trans (State.addCause_guards _ _ _)

theorem State.evaluateChain_guards (c : Chain) (t : Nat) : s.Guards (s.evaluateChain x c t).1 := by
  unfold State.evaluateChain
  split
  · dsimp only
    split
    · exact s.occur_guards x _
    · exact (s.occur_cause_guards x _ _).trans .of_fields
  · dsimp only
    split
    · exact .trans .of_fields (State.removeCause_guards _ _ _)
    · exact .of_fields

theorem State.refillTest_guards (id : Nat) : s.Guards (s.refillTest id x) := by
  unfold State.refillTest
  split
  · exact .refl s
  · split
    · exact .of_fields
    · exact .refl s

theorem State.evaluateLane_guards (t : Nat) : s.Guards (s.evaluateLane x t).1 := by
  unfold State.evaluateLane
  split
  · exact .refl s
  · rename_i a _
    dsimp only
    split
    · exact .refl s
    · have hretired : s.Guards
          { s with chains := mapChain s.chains a.record.targetId x (fun c => c.retire t) } := .of_fields
      split
      · have hvalued := hretired.trans (State.evaluateChain_guards _ x (Chain.retire ‹Chain› t) t)
        split
        · exact hvalued
        · exact hvalued.trans (State.refillTest_guards _ x _)
      · exact hretired.trans (State.refillTest_guards _ x _)

theorem State.runningSteps_guards (t : Nat) : s.Guards (s.runningSteps x t).1 := by
  unfold State.runningSteps
  split
  · dsimp only
    split
    · exact s.evaluateSample_guards
    · exact (s.evaluateSample_guards.trans (.of_running _)).trans (State.evaluateLane_guards _ x t)
  · exact .refl s

theorem State.convertStep_guards (t : Nat) (m : Motion) : s.Guards (s.convertStep x t m).1 := by
  unfold State.convertStep
  split
  · exact .refl s
  · split
    · exact s.removeCause_guards _ x
    · dsimp only
      split
      · exact s.occur_guards x _
      · exact s.occur_cause_guards x _ _

theorem State.occurLimit_guards (hs : s.seq.motion.composing = true) : s.Guards (s.occurLimit x).1 := by
  obtain ⟨hagrees, ⟨-, hmoves⟩ | ⟨-, hends⟩⟩ := s.occurLimit_spec x
  · exact .of_moves hmoves
  · exact .of_agrees hagrees (State.mayMove_of_motion (MotionState.ne_alarm_of_composing hs)) hends.not_alarm

theorem State.softStep_guards (t : Nat) (m : Motion) : s.Guards (s.softStep x t m).1 := by
  unfold State.softStep
  split
  · exact s.convertStep_guards x t m
  · rename_i hs
    split
    · have hlimit := s.occurLimit_guards x (Bool.not_eq_false _ ▸ hs)
      dsimp only
      split
      · exact hlimit
      · exact (hlimit.trans (State.addCause_guards _ _ _)).trans (State.convertStep_guards _ x t _)
    · exact (s.removeCause_guards _ x).trans (State.convertStep_guards _ x t m)

theorem State.commandStep_guards (t : Nat) (faulted : Bool) : s.Guards (s.commandStep x t faulted).1 := by
  unfold State.commandStep
  split
  · exact .refl s
  · split
    · exact .refl s
    · exact s.softStep_guards x t _

theorem State.placeSetpoint_guards (tag : Byte) (p : Option Setpoint) :
    s.Guards (s.placeSetpoint x tag p) := by
  cases p <;> exact .of_fields

theorem State.driveSteps_guards (tag : Byte) : s.Guards (s.driveSteps x tag).1 :=
  ((s.runningSteps_guards x _).trans (State.commandStep_guards _ x _ _)).trans
    (State.placeSetpoint_guards _ x tag _)

theorem State.settleTest_guards (hm : s.seq.motion = .settling) (err : Int) (braked : Bool) :
    s.Guards (s.settleTest x err braked) := by
  unfold State.settleTest
  split
  · exact .refl s
  · split
    · exact .of_fields
    · dsimp only
      split
      · refine .trans .of_fields (State.enter_guards _ (State.mayMove_of_motion ?_) ?_)
        · exact MotionState.ne_alarm_of_running (congrArg MotionState.running hm)
        · split <;> nofun
      · exact .of_fields

theorem State.trackTest_guards (err : Int) : s.Guards (s.trackTest x err) := by
  unfold State.trackTest
  split
  · dsimp only
    split
    · exact s.occur_guards x _
    · exact (s.occur_cause_guards x _ .trackError).trans .of_fields
  · exact .refl s

theorem State.recoverTest_guards (err : Int) (braked : Bool) : s.Guards (s.recoverTest x err braked) := by
  unfold State.recoverTest
  split
  · exact .refl s
  · dsimp only
    split
    · split
      · exact .trans .of_fields (State.addCause_guards _ _ _)
      · exact .of_fields
    · split
      · exact .trans .of_fields (.of_moves (State.lowerCause_moves _ _ _))
      · exact .of_fields

/-- The park is completed in PARKING alone (R71, R126). -/
theorem State.parkTest_guards (hs : s.mayMove) : s.Guards s.parkTest := by
  unfold State.parkTest
  split
  · split
    · exact .trans .of_fields (State.enter_guards _ hs nofun)
    · exact .refl s
  all_goals exact .refl s

theorem State.errorTests_guards (err : Int) (braked : Bool) : s.Guards (s.errorTests x err braked) := by
  have hraised : s.Guards (s.raiseMaxError x err) := .of_running _
  unfold State.errorTests
  split
  case h_1 hm => exact hraised.trans (State.settleTest_guards (s.raiseMaxError x err) x hm _ _)
  case h_2 => exact hraised.trans (State.trackTest_guards _ x _)
  case h_3 =>
    dsimp only
    split
    · exact hraised.trans (State.recoverTest_guards _ x _ _)
    · exact hraised
  case h_4 hm => exact s.parkTest_guards (State.mayMove_of_motion (by rw [hm]; nofun))
  all_goals exact .refl s

theorem State.errorStep_guards (f : SampleFields) (hold : Bool) : s.Guards (s.errorStep x f hold) := by
  unfold State.errorStep
  split
  · exact .refl s
  · dsimp only
    split
    · exact .of_fields
    · exact .trans .of_fields (State.errorTests_guards _ x _ _)

theorem State.telemetryStep_guards : s.Guards (s.telemetryStep x) := by
  unfold State.telemetryStep State.copyTelemetry
  dsimp only
  repeat' split
  all_goals exact .of_fields

theorem State.takeSample_guards (tag : Byte) (f : SampleFields) : s.Guards (s.takeSample x tag f) := by
  have hrecorded : s.Guards (s.recordSample x f) := .of_fields
  exact (((hrecorded.trans (State.checkDrive_guards _ x f)).trans (State.driveSteps_guards _ x tag)).trans
    (State.errorStep_guards _ x f _)).trans (State.telemetryStep_guards _ x)

end

/-! ### The links (chapter 10) -/

section
variable (s : State)

theorem State.proxyFrame_guards (x : Lane) (f : Frame) : s.Guards (s.proxyFrame x f) := by
  unfold State.proxyFrame
  repeat' split
  all_goals exact .of_fields

theorem State.replyFrame_guards (x : Lane) (f : Frame) : s.Guards (s.replyFrame x f) := by
  unfold State.replyFrame
  repeat' split
  all_goals exact .of_fields

theorem State.sortSite_guards (f : Frame) : s.Guards (s.sortSite f) := by
  unfold State.sortSite
  split
  · split
    · unfold State.bufferRequest
      split <;> exact .of_fields
    · split
      · exact s.takeGuide_guards _ _
      · exact .refl s
  · split
    · exact s.proxyFrame_guards _ f
    · exact .refl s

theorem State.sortAxis_guards (x : Lane) (f : Frame) : s.Guards (s.sortAxis x f) := by
  unfold State.sortAxis
  split
  · split
    · split
      · exact s.takeSample_guards x _ _
      · exact .refl s
    · split
      · exact s.replyFrame_guards x f
      · exact .refl s
  · exact .refl s

theorem State.takeRx_guards (p : Port) (e : RxEvent) : s.Guards (State.takeRx p s e) := by
  cases e with
  | received f =>
    cases p with
    | site => exact s.sortSite_guards f
    | axis x => exact s.sortAxis_guards x f
  | discarded e => cases p <;> exact .of_fields

theorem State.receiveLine_guards (p : Port) (input : List LineInput) : s.Guards (s.receiveLine p input) := by
  have hfold : ∀ (es : List RxEvent) (t : State), t.Guards (es.foldl (State.takeRx p) t) := by
    intro es
    induction es with
    | nil => exact State.Guards.refl
    | cons e es ih => exact fun t => (t.takeRx_guards p e).trans (ih _)
  have hmoved : ∀ r, s.Guards (s.setReceiver p r) := fun r => by cases p <;> exact .of_fields
  exact (hmoved _).trans (hfold _ _)

theorem State.startSite_guards : s.Guards s.startSite := by
  unfold State.startSite
  repeat' split
  all_goals exact .of_fields

end

/-! ### The bodies of the requests (R180)

The bodies of the requests that move nothing pass their checks one by one and change some field; they are taken where
the commands are gone through. -/

section
variable {s : State}

/-- A check that refuses the request, or else lets it pass. -/
theorem State.Guards.unless {c : Prop} [Decidable c] {status : Status} {out : State × Reply}
    (h : ¬ c → s.Guards out.1) : s.Guards (if c then refuse s status else out).1 := by
  split
  · exact .refl s
  · exact h ‹_›

end

section
variable (p : List Byte) (s : State)

theorem State.active?_occupied {s : State} {id : Nat} {a : Running} (h : s.active? id = some a) :
    s.seq.active.isSome = true := by
  rw [(Option.filter_eq_some_iff.mp h).1]
  rfl

theorem submitTargetBody_guards : s.Guards (submitTargetBody p s).1 := by
  refine .unless fun _ => ?_
  split
  · exact .refl s
  · split
    · exact .refl s
    · exact .trans (t := s.admitRecord _ _) .of_fields (State.retestIfHeadChanged_guards _ s)

theorem State.pushActive_kept : s.pushActive.cond = s.cond ∧ s.pushActive.permit = s.permit := by
  obtain ⟨f, -, he⟩ := s.endSpell_eq
  unfold State.pushActive
  rw [he]
  cases s.seq.active <;> exact ⟨rfl, rfl⟩

/-- A preemption begins a slew from a running state (R67). -/
theorem State.preempt_guards (hs : s.seq.motion.running = true) (r : TargetRecord) (cs : List Chain) :
    s.Guards (s.preempt r cs).1 := by
  refine .unless fun _ => .unless fun _ => ?_
  dsimp only
  split
  · exact .refl s
  · obtain ⟨hcond, hpermit⟩ := State.pushActive_kept { s with chains := s.chains ++ cs }
    have hslot := State.takeSlot_agrees (State.pushActive { s with chains := s.chains ++ cs })
    exact .of_moved (State.mayMove_of_motion (MotionState.ne_alarm_of_running hs))
      (State.takeSlot_slews _ _ _).not_alarm ((hslot _ _).cond.trans hcond) ((hslot _ _).permit.trans hpermit)

theorem State.queueFirst_guards (r : TargetRecord) (cs : List Chain) : s.Guards (s.queueFirst r cs).1 :=
  .unless fun _ => .trans (t := State.setQueue { s with chains := s.chains ++ cs } (r :: s.seq.queue)) .of_fields
    (State.retestIfHeadChanged_guards _ s)

theorem submitOpportunityBody_guards : s.Guards (submitOpportunityBody p s).1 := by
  refine .unless fun _ => ?_
  split
  · exact .refl s
  · split
    · exact .refl s
    · split
      · exact .refl s
      · refine .unless fun _ => ?_
        split
        · exact .refl s
        · split
          · exact s.preempt_guards ‹_› _ _
          · exact s.queueFirst_guards _ _

theorem withdrawTargetBody_guards : s.Guards (withdrawTargetBody p s).1 := by
  refine .unless fun _ => ?_
  unfold State.withdraw
  split
  · exact s.endActive_guards (State.active?_occupied ‹_›) _ _
  · exact .of_fields
  · exact .trans (t := s.departQueued _ _ _) .of_fields (State.retestIfHeadChanged_guards _ s)
  · exact .refl s

theorem flushQueueBody_guards : s.Guards (flushQueueBody p s).1 :=
  .unless fun _ => s.departAllQueued_guards _ _ _

theorem runQueueBody_guards : s.Guards (runQueueBody p s).1 := by
  refine .unless fun _ => ?_
  split
  · exact .refl s
  · exact .trans (t := { s with seq.mode := .run }) .of_fields (State.testActivation_guards _)

theorem adjustDwellBody_guards : s.Guards (adjustDwellBody p s).1 := by
  refine .unless fun _ => ?_
  unfold State.adjustDwell
  split
  · dsimp only [accept]
    split
    · exact s.endActive_guards (State.active?_occupied ‹_›) _ _
    · exact .of_running _
  · dsimp only [accept]
    split <;> exact .of_fields
  · exact .unless fun _ => .of_fields
  · exact .refl s

theorem appendSegmentsBody_guards : s.Guards (appendSegmentsBody p s).1 := by
  unfold appendSegmentsBody State.appendTo
  split
  · exact .refl s
  · split
    · exact .refl s
    · split
      · exact .refl s
      · split
        · exact .refl s
        · dsimp only [accept]
          split
          · exact .trans (t := s.storeSegments _ _ _) .of_fields (State.testActivation_guards _)
          · exact .of_fields

theorem closeChainBody_guards : s.Guards (closeChainBody p s).1 := by
  unfold closeChainBody State.closeChain
  repeat' split
  all_goals exact .of_fields

theorem truncateChainBody_guards : s.Guards (truncateChainBody p s).1 := by
  unfold truncateChainBody State.truncateChain
  repeat' split
  all_goals exact .of_fields

theorem unparkBody_guards : s.Guards (unparkBody p s).1 := by
  refine .unless fun _ => .unless fun hm => ?_
  split
  · exact .refl s
  · have hrest : s.Guards { s.releaseAll.startWatches with freeIndex := s.freeIndex + 3 } := .of_fields
    refine hrest.trans (State.enterIdle_guards _ (State.mayMove_of_motion ?_) _)
    exact fun halarm => hm fun hparked => nomatch hparked.symm.trans halarm

/-- Clear Alarm is taken with PERMIT high, and leaves the record empty and another state than ALARM (R73, R156). -/
theorem clearAlarmBody_guards : s.Guards (clearAlarmBody p s).1 := by
  refine .unless fun _ => .unless fun _ => ?_
  split
  · exact .refl s
  · rename_i hready
    have hagrees := State.enterIdle_agrees
      { s.unalarmed.releaseAll.startWatches with freeIndex := s.freeIndex + 3 } s.unalarmed.measuredHold
    have haway : s.unalarmed.leaveRest.seq.motion ≠ .alarm := State.enterIdle_motion _ _
    have hcond : s.unalarmed.leaveRest.cond = s.unalarmed.cond := hagrees.cond
    refine ⟨fun _ hm => absurd hm haway, fun _ _ => ⟨?_, fun _ => ?_⟩, fun _ _ hlow => ?_⟩
    · show s.unalarmed.leaveRest.cond.first.isSome = decide (s.unalarmed.leaveRest.seq.motion = .alarm)
      rw [hcond, decide_eq_false haway]
      rfl
    · exact congrArg ConditionUnit.causeSet hcond
    · cases hready.symm.trans (State.clearRefusal_permit (hagrees.permit.symm.trans hlow))

theorem parkBody_guards : s.Guards (parkBody p s).1 := by
  refine .unless fun _ => .unless fun halarm => ?_
  have hs := State.mayMove_of_motion halarm
  show s.Guards s.parkNow
  unfold State.parkNow
  split
  case h_5 => exact s.startPark_guards hs _
  case h_6 | h_7 | h_8 | h_9 => exact .of_fields
  all_goals exact (s.haltRun_guards hs .park).trans .of_fields

theorem stopBody_guards : s.Guards (stopBody p s).1 := by
  refine .unless fun _ => .unless fun hrest => ?_
  have hs := State.mayMove_of_motion (not_or.mp hrest).2
  show s.Guards s.stopNow
  unfold State.stopNow
  split
  case h_5 =>
    let unparked : State := { s with seq.parkPending := false }
    exact .trans (t := unparked) .of_fields (unparked.startStop_guards hs _)
  case h_6 | h_7 | h_8 | h_9 => exact .refl s
  all_goals exact s.haltRun_guards hs .stop

theorem State.setStack_guards (old new : OffsetStack) : s.Guards (s.setStack old new) := by
  have hstack : s.Guards (s.mapContext fun c => { c with stack := new }) := .of_running _
  unfold State.setStack
  dsimp only
  split
  · exact hstack
  · exact hstack.trans (.of_moves (State.offsetChanged_moves _))

theorem State.stackFault_guards (i : Indicator) : s.Guards (s.stackFault i).1 :=
  .trans (t := s.mapContext fun c => { c with indicator := some i }) (.of_running _)
    (State.raiseCondition_guards _ _ _ _)

theorem pushOffsetBody_guards : s.Guards (pushOffsetBody p s).1 := by
  refine .unless fun _ => ?_
  split
  · exact .refl s
  · dsimp only
    split
    · exact s.stackFault_guards _
    · split
      · exact s.setStack_guards _ _
      · exact .refl s

theorem popOffsetBody_guards : s.Guards (popOffsetBody p s).1 := by
  refine .unless fun _ => ?_
  split
  · exact .refl s
  · dsimp only
    split
    · exact s.stackFault_guards _
    · exact s.setStack_guards _ _

theorem replaceTopOffsetBody_guards : s.Guards (replaceTopOffsetBody p s).1 := by
  refine .unless fun _ => ?_
  split
  · exact .refl s
  · dsimp only
    split
    · exact s.stackFault_guards _
    · split
      · exact s.setStack_guards _ _
      · exact .refl s

theorem clearOffsetsBody_guards : s.Guards (clearOffsetsBody p s).1 := by
  refine .unless fun _ => ?_
  split
  · exact .refl s
  · exact s.setStack_guards _ _

theorem startGuidingBody_guards : s.Guards (startGuidingBody p s).1 := by
  refine .unless fun _ => ?_
  split
  · exact .refl s
  · exact .unless fun _ => .unless fun _ => s.startGuide_guards _

theorem stopGuidingBody_guards : s.Guards (stopGuidingBody p s).1 := by
  refine .unless fun _ => ?_
  split
  · exact .refl s
  · exact s.stopGuide_guards _ _

theorem clearConditionsBody_guards : s.Guards (clearConditionsBody p s).1 := by
  unfold clearConditionsBody
  split
  · exact .refl s
  · split
    · exact .refl s
    · exact .of_running _

theorem setTimeBody_guards : s.Guards (setTimeBody p s).1 := by
  refine .unless fun _ => ?_
  dsimp only
  split
  · exact .refl s
  · exact ((s.setClock_guards _).trans .of_fields).trans (State.afterClock_guards _)

/-- A soft reset empties the slot, and keeps the motion state, the record and PERMIT (R155, R187). -/
theorem resetControllerBody_guards : s.Guards (resetControllerBody p s).1 := by
  rcases resetControllerBody_cases p s with ⟨_, he⟩ | ⟨_, he⟩ <;> rw [he]
  · exact .refl s
  · exact ⟨fun _ _ => rfl, fun _ h => h, fun _ h => h⟩

end

/-! ### Every command and every microsecond -/

section
variable {s : State}

theorem takeRequest_guards {cmd : Instr} {body : List Byte → State → State × Reply}
    (hbody : ∀ (p : List Byte) (t : State), t.Guards (body p t).1) : s.Guards (takeRequest cmd body s) :=
  takeRequest_of_body (P := s.Guards) (fun _ _ ht => ht.trans .of_fields)
    (fun p t ht => ht.trans (hbody p t)) (.refl s)

/-- Every request is taken by the Request Processor with a body that guards. -/
theorem exec_request_guards {c : Instr} (h : (requestCode c).isSome = true ∨ c = .unknownRequest) :
    ∃ body, (∀ s, exec c s = .next (takeRequest c body s)) ∧ ∀ p s, State.Guards s (body p s).1 := by
  cases c with
  | submitTarget => exact ⟨_, fun _ => rfl, submitTargetBody_guards⟩
  | submitOpportunity => exact ⟨_, fun _ => rfl, submitOpportunityBody_guards⟩
  | withdrawTarget => exact ⟨_, fun _ => rfl, withdrawTargetBody_guards⟩
  | flushQueue => exact ⟨_, fun _ => rfl, flushQueueBody_guards⟩
  | runQueue => exact ⟨_, fun _ => rfl, runQueueBody_guards⟩
  | holdQueue => exact ⟨_, fun _ => rfl, fun _ _ => .unless fun _ => .of_fields⟩
  | readTarget => exact ⟨_, fun _ => rfl, fun p s => .of_eq (readTargetBody_state p s)⟩
  | readOutcome => exact ⟨_, fun _ => rfl, fun p s => .of_eq (readOutcomeBody_state p s)⟩
  | readCaptures => exact ⟨_, fun _ => rfl, fun p s => .of_eq (readCapturesBody_state p s)⟩
  | adjustDwell => exact ⟨_, fun _ => rfl, adjustDwellBody_guards⟩
  | appendSegments => exact ⟨_, fun _ => rfl, appendSegmentsBody_guards⟩
  | closeChain => exact ⟨_, fun _ => rfl, closeChainBody_guards⟩
  | truncateChain => exact ⟨_, fun _ => rfl, truncateChainBody_guards⟩
  | readChain => exact ⟨_, fun _ => rfl, fun p s => .of_eq (readChainBody_state p s)⟩
  | unpark => exact ⟨_, fun _ => rfl, unparkBody_guards⟩
  | park => exact ⟨_, fun _ => rfl, parkBody_guards⟩
  | stop => exact ⟨_, fun _ => rfl, stopBody_guards⟩
  | clearAlarm => exact ⟨_, fun _ => rfl, clearAlarmBody_guards⟩
  | writeTerm =>
    exact ⟨_, fun _ => rfl, fun _ _ => .unless fun _ => .unless fun _ => .unless fun _ => .of_fields⟩
  | deleteTerm => exact ⟨_, fun _ => rfl, fun _ _ => .unless fun _ => .unless fun _ => .of_fields⟩
  | commitTerms =>
    exact ⟨_, fun _ => rfl, fun _ _ => .unless fun _ => by split <;> exact .of_fields⟩
  | readTerms => exact ⟨_, fun _ => rfl, fun p s => .of_eq (readTermsBody_state p s)⟩
  | pushOffset => exact ⟨_, fun _ => rfl, pushOffsetBody_guards⟩
  | popOffset => exact ⟨_, fun _ => rfl, popOffsetBody_guards⟩
  | replaceTopOffset => exact ⟨_, fun _ => rfl, replaceTopOffsetBody_guards⟩
  | clearOffsets => exact ⟨_, fun _ => rfl, clearOffsetsBody_guards⟩
  | readOffsets => exact ⟨_, fun _ => rfl, fun p s => .of_eq (readOffsetsBody_state p s)⟩
  | configureGuide =>
    exact ⟨_, fun _ => rfl, fun p s => by unfold configureGuideBody; split <;> exact .of_fields⟩
  | startGuiding => exact ⟨_, fun _ => rfl, startGuidingBody_guards⟩
  | stopGuiding => exact ⟨_, fun _ => rfl, stopGuidingBody_guards⟩
  | setMasks => exact ⟨_, fun _ => rfl, fun p s => by unfold setMasksBody; split <;> exact .of_fields⟩
  | clearConditions => exact ⟨_, fun _ => rfl, clearConditionsBody_guards⟩
  | readConditions => exact ⟨_, fun _ => rfl, fun p s => .of_eq (readConditionsBody_state p s)⟩
  | loadAxes =>
    refine ⟨_, fun _ => rfl, fun _ s => .unless fun _ => .unless fun _ => ?_⟩
    split
    · exact .refl s
    · exact .unless fun _ => .of_fields
  | loadLimits =>
    exact ⟨_, fun _ => rfl, fun _ _ => .unless fun _ => .unless fun _ => .unless fun _ => .unless fun _ =>
      .unless fun _ => .unless fun _ => .of_fields⟩
  | lockLimits => exact ⟨_, fun _ => rfl, fun _ _ => .unless fun _ => .unless fun _ => .of_fields⟩
  | loadForwarding =>
    exact ⟨_, fun _ => rfl, fun _ _ => .unless fun _ => by split <;> exact .of_fields⟩
  | setReportDestination =>
    refine ⟨_, fun _ => rfl, fun p s => ?_⟩
    unfold setReportDestinationBody
    split
    · exact .unless fun _ => .of_fields
    · exact .refl s
  | enableSupervision =>
    exact ⟨_, fun _ => rfl, fun _ _ => .unless fun _ => .unless fun _ => .unless fun _ => .of_fields⟩
  | setTime => exact ⟨_, fun _ => rfl, setTimeBody_guards⟩
  | setTimeAtPulse => exact ⟨_, fun _ => rfl, fun _ _ => .unless fun _ => .of_fields⟩
  | readTime => exact ⟨_, fun _ => rfl, fun _ _ => .unless fun _ => .of_fields⟩
  | peekTime => exact ⟨_, fun _ => rfl, fun p s => .of_eq (peekTimeBody_state p s)⟩
  | readStatus => exact ⟨_, fun _ => rfl, fun _ _ => .unless fun _ => .of_fields⟩
  | resetController => exact ⟨_, fun _ => rfl, resetControllerBody_guards⟩
  | unknownRequest => exact ⟨_, fun _ => rfl, fun _ s => .refl s⟩
  | _ => exact h.elim nofun nofun

theorem State.dwellDue_active (h : s.dwellDue = true) : s.seq.active.isSome = true := by
  cases ha : s.seq.active with
  | none => simp [State.dwellDue, ha] at h
  | some a => rfl

theorem State.graceDue_active (h : s.graceDue = true) : s.seq.active.isSome = true :=
  (Bool.and_eq_true_iff.mp h).1

theorem State.guideLostDue_active (h : s.guideLostDue = true) : s.seq.active.isSome = true := by
  unfold State.guideLostDue at h
  split at h
  · cases h
  · rename_i ha
    rw [ha]
    rfl

/-- A lapse has no effect in ALARM (R75, R76). -/
theorem State.lapse_guards (s : State) : s.Guards s.lapse := by
  have heffect : ∀ t : State, t.Guards t.lapseEffect := by
    intro t
    unfold State.lapseEffect
    split
    case h_5 hm => exact t.startPark_guards (State.mayMove_of_motion (by rw [hm]; nofun)) _
    case h_6 | h_7 | h_8 | h_9 => exact .of_fields
    all_goals
      dsimp only
      split
      · exact .trans .of_fields (State.endActive_guards _ (State.graceDue_active ‹_›) _ _)
      · exact .of_fields
  exact .trans .of_fields (heffect _)

theorem State.completeStop_guards {p : StopPlan} (hp : s.stopEnded = some p) : s.Guards (s.completeStop p) := by
  have hs : s.mayMove := State.mayMove_of_motion (by rw [State.stopEnded_motion hp]; nofun)
  unfold State.completeStop
  split
  · exact s.startPark_guards hs _
  · exact s.enterIdle_guards hs _

/-- A pin reset empties the record, and with PERMIT low an alarm follows in the same event (R154, R155). -/
theorem exec_pinReset_guards (straps : BitVec 3) (permit : Bool) (s : State) :
    ∃ t, exec (.pinReset straps permit) s = .next t ∧ s.Guards t := by
  have hvacant : (s.pinReset straps permit).alarmVacant := fun _ => rfl
  have hrecord : (s.pinReset straps permit).alarmMatches := ⟨rfl, fun _ => rfl⟩
  refine ⟨_, rfl, ?_⟩
  split
  · rename_i hhigh
    exact ⟨fun _ => hvacant, fun _ _ => hrecord, fun _ _ hlow => nomatch hhigh.symm.trans hlow⟩
  · have hraised := State.raiseAlarm_guards (s.pinReset straps permit) .permitLost none
    exact ⟨fun _ => hraised.vacant hvacant, fun _ _ => hraised.record hvacant hrecord,
      fun _ _ _ => State.raiseAlarm_motion _ _ _⟩

/-- PERMIT gone low raises its alarm in the same event (R154). -/
theorem exec_permitLost_guards (s : State) : ∃ t, exec .permitLost s = .next t ∧ s.Guards t := by
  have hraised := State.raiseAlarm_guards { s with permit := false } .permitLost none
  exact ⟨_, rfl, hraised.vacant, hraised.record, fun _ _ _ => State.raiseAlarm_motion _ _ _⟩

theorem exec_event_guards {c : Instr} (hc : ¬ ((requestCode c).isSome = true ∨ c = .unknownRequest))
    (s : State) : ∃ t, exec c s = .next t ∧ s.Guards t := by
  cases c with
  | requestFrameReception | guideFrame | sample | proxyServiceFrame | serviceReply | linkError =>
    exact ⟨_, rfl, s.receiveLine_guards _ _⟩
  | waitIdleReturnToHunt p =>
    refine ⟨_, rfl, ?_⟩
    split
    · exact s.receiveLine_guards _ _
    · exact .refl s
  | siteTransmitStart =>
    refine ⟨_, rfl, ?_⟩
    split
    · exact s.startSite_guards
    · exact .refl s
  | axisTransmitStart x =>
    refine ⟨_, rfl, ?_⟩
    split <;> exact .of_fields
  | frameTransmissionEnd p =>
    refine ⟨_, rfl, ?_⟩
    cases p <;> exact .of_fields
  | pinReset straps permit => exact exec_pinReset_guards straps permit s
  | permitLost => exact exec_permitLost_guards s
  | permitRise => exact ⟨_, rfl, id, fun _ => id, fun _ _ => nofun⟩
  | encoderSilent x =>
    refine ⟨_, rfl, ?_⟩
    split
    · exact s.raiseAlarm_guards _ _
    · exact .refl s
  | pulseEdge =>
    have hcaptured : s.Guards s.capturePulse := .of_fields
    refine ⟨_, rfl, ?_⟩
    split
    · exact hcaptured
    · exact hcaptured.trans (State.pulseLoad_guards _ _)
  | shutterEdge e =>
    have hcaptured : s.Guards (s.captureEdge e) := .of_running _
    refine ⟨_, rfl, ?_⟩
    split
    · exact .of_fields
    · dsimp only
      split
      · exact hcaptured.trans (State.raiseCondition_guards _ _ _ _)
      · exact hcaptured
  | supervisionLapse =>
    refine ⟨_, rfl, ?_⟩
    split
    · exact s.lapse_guards
    · exact .refl s
  | graceExpiry =>
    refine ⟨_, rfl, ?_⟩
    split
    · exact s.endActive_guards (State.graceDue_active ‹_›) _ _
    · exact .refl s
  | guideLost =>
    refine ⟨_, rfl, ?_⟩
    split
    · exact s.endActive_guards (State.guideLostDue_active ‹_›) _ _
    · exact .refl s
  | dwellCompletion =>
    refine ⟨_, rfl, ?_⟩
    split
    · exact s.endActive_guards (State.dwellDue_active ‹_›) _ _
    · exact .refl s
  | guideWatchExpiry =>
    refine ⟨_, rfl, ?_⟩
    split
    · exact s.expireGuideWatch_guards
    · exact .refl s
  | slewCompletion =>
    refine ⟨_, rfl, ?_⟩
    split
    · rename_i hdue
      have hs : s.mayMove := State.mayMove_of_motion (by rw [State.slewDue_motion hdue]; nofun)
      exact .trans (t := { s with planner.current := .none }) .of_fields (State.enter_guards _ hs nofun)
    · exact .refl s
  | stopCompletion =>
    refine ⟨_, rfl, ?_⟩
    split
    · exact State.completeStop_guards ‹_›
    · exact .refl s
  | windowExpiry id =>
    refine ⟨_, rfl, ?_⟩
    split
    · exact (s.departAllQueued_guards _ _ _).trans (State.retestIfHeadChanged_guards _ _)
    · exact .refl s
  | startTimeReached =>
    refine ⟨_, rfl, ?_⟩
    unfold State.takeStart
    split
    · exact .trans (t := { s with seq.startHanded := false }) .of_fields (State.testActivation_guards _)
    · exact .refl s
  | unknownRequest => exact absurd (.inr rfl) hc
  | _ => exact absurd (.inl rfl) hc

theorem exec_guards {c : Instr} {t : State} (he : exec c s = .next t) : s.Guards t := by
  by_cases hc : (requestCode c).isSome = true ∨ c = .unknownRequest
  · obtain ⟨body, hexec, hbody⟩ := exec_request_guards hc
    cases (hexec s).symm.trans he
    exact takeRequest_guards hbody
  · exact exec_of_next (exec_event_guards hc s) he

theorem step_guards {t : State} (hstep : step s = .next t) : s.Guards t := by
  rcases step_command_or_tick hstep with ⟨c, q, he⟩ | rfl
  · have hqueued : s.Guards { s with pending := q } := .of_fields
    exact hqueued.trans (exec_guards he)
  · exact s.tick_guards

end

/-- Settles O8: no command and no microsecond leaves ALARM but Clear Alarm and a pin reset, and none enters it but
with a first cause. -/
theorem alarmRecordMatchesMotion : Obligations.AlarmRecordMatchesMotion :=
  ⟨fun _ _ hslot h hstep => (step_guards hstep).record hslot.alarmVacant h,
    fun _ _ hslot h hstep => (step_guards hstep).permit hslot.alarmVacant h⟩

end Sys2Proof.Machine

/-! # Read Time and Read Status: obligation O25 -/

namespace Sys2Proof.Machine

/-! ## What each answers and clears (R162, R186) -/

section
variable (s : State)

theorem readTimeBody_clearsMark :
    readTimeBody [] s = ({ s with time.pulseNew := false }, okReply (timeBytes s.time)) :=
  if_neg (not_not_intro rfl)

theorem readStatusBody_clearsMarks : readStatusBody [] s = (s.clearStatus, okReply s.statusBytes) :=
  if_neg (not_not_intro rfl)

/-- The first alarm's kind, axis and time fill 10 bytes, cause or none. -/
@[simp] theorem firstCauseBytes_length (c : Option FirstCause) : (firstCauseBytes c).length = 10 := by
  cases c with
  | none => simp [firstCauseBytes]
  | some c => simp [firstCauseBytes]

/-- Every field of a Read Status has the width of R186, whatever its value. -/
theorem State.statusBytes_length : s.statusBytes.length = 28 := by
  simp [State.statusBytes]

end

/-- Settles O25: each body is its clearing of the state with the request taken, and answers what it read before
it cleared. -/
theorem readTimeAndStatusClearMarks : Obligations.ReadTimeAndStatusClearMarks := fun s _ rest =>
  ⟨fun h => exec_answers (u := { s with time.pulseNew := false }) h rfl rfl
      (readTimeBody_clearsMark { s with site.requests := rest }),
    fun h => ⟨s.statusBytes_length, exec_answers (u := s.clearStatus) h rfl rfl
      (readStatusBody_clearsMarks { s with site.requests := rest })⟩⟩

end Sys2Proof.Machine

/-! # The links: obligations O14, O17, O49, O50 -/

namespace Sys2Proof.Machine

/-! ## Characters and the line of a transmitter (R168) -/

/-- The bits of a character, lowest first: the start bit, the byte's bits and the stop bit. -/
theorem lineChar_getLsbD (b : Byte) (i : Nat) : (lineChar b).getLsbD i =
    if i = 0 then false else if i < 9 then b.getLsbD (i - 1) else decide (i = 9) := by
  unfold lineChar
  rw [BitVec.getLsbD_append, BitVec.getLsbD_append]
  rcases i with _ | i
  · rfl
  · by_cases hi : i < 8
    · simp [hi]
    · simp [hi, show ¬ i + 1 < 9 by omega]
      omega

/-- While a byte of a frame in flight is sent, its character is on the line. -/
theorem Transmitter.line_sending {l : Transmitter} {f : InFlight} {b : Byte} (h : l.inFlight = some f)
    (hb : f.wire[f.pos]? = some b) : l.line = lineChar b := by
  simp only [Transmitter.line, h, Option.bind_some, hb]

/-- Behind the last byte of a frame in flight the line is idle. -/
theorem Transmitter.line_sent {l : Transmitter} {f : InFlight} (h : l.inFlight = some f)
    (hpos : f.wire.length ≤ f.pos) : l.line = idleChar := by
  simp only [Transmitter.line, h, Option.bind_some, List.getElem?_eq_none hpos]

/-- A frame on the line: the start byte, the header, the payload and the CRC in two bytes (R171). -/
theorem frameWire_eq (f : Frame) :
    frameWire f = 0xA5 :: (frameCovered f ++ natBytes 2 (crc16 (frameCovered f)).toNat) := by
  rw [frameWire, crcBytes_eq]

/-- Settles O14: the wire form by its layout, its reading back by the receiver's run over it, and the characters
bit by bit. -/
theorem wireFormReadsBack : Obligations.WireFormReadsBack := by
  refine ⟨fun f hf => ?frame, ?crc, fun b => ?char, fun l => ⟨Transmitter.line_idle, fun f hf => ?line⟩⟩
  case frame =>
    have hsize : f.payload.length ≤ Config.payloadSize := of_decide_eq_true hf
    refine ⟨(frameWire_eq f).trans ?_, frameOfWire_frameBody hsize, rxRun_frameLine hsize⟩
    simp only [frameCovered, List.cons_append, List.nil_append, List.append_assoc]
  case crc => decide +kernel
  case char =>
    refine ⟨lineChar_getLsbD b 0, fun i hi => ?_, lineChar_getLsbD b 9, charByte_lineChar b⟩
    rw [lineChar_getLsbD, if_neg (Nat.succ_ne_zero i), if_pos (Nat.succ_lt_succ hi), Nat.add_sub_cancel]
  case line => exact ⟨fun _ => Transmitter.line_sending hf, Transmitter.line_sent hf⟩

/-! ## Codes of requests (R173, R180) -/

/-- A request's code names it, whatever parameters follow. -/
theorem requestOf_requestCode {c : Instr} {code : Byte} (p : List Byte) (h : requestCode c = some code) :
    requestOf (code :: p) = c := by
  cases c <;> cases h <;> rfl

/-- A payload that names a request begins with that request's code. -/
theorem head_of_requestOf {p : List Byte} {code : Byte} (h : requestCode (requestOf p) = some code) :
    p.head? = some code := by
  cases p with
  | nil => cases h
  | cons b p =>
    unfold requestOf at h
    dsimp only at h
    split at h
    case h_46 => cases h
    all_goals
      rename_i hb
      cases h
      exact congrArg some (BitVec.eq_of_toNat_eq hb)

/-- A payload that begins with no request's code names none. -/
theorem requestOf_unknown {p : List Byte}
    (h : ∀ (c : Instr) (code : Byte), requestCode c = some code → p.head? ≠ some code) :
    requestOf p = .unknownRequest := by
  refine (requestOf_names p).resolve_left fun hnamed => ?_
  obtain ⟨code, hcode⟩ := Option.isSome_iff_exists.mp hnamed
  exact h _ code hcode (head_of_requestOf hcode)

/-- An addressed request with room for its answer is taken, its payload empty or not (R173). -/
theorem takeRequest_addressed {s : State} {r : Request} {rest : List Request} {cmd : Instr}
    {body : List Byte → State → State × Reply} (hr : s.site.requests = r :: rest) (hd : r.dest ≠ 0xFF)
    (hl : s.site.responses.length < Config.responseSize) (hc : requestOf r.payload = cmd) :
    takeRequest cmd body s =
      (body r.payload.tail { s with site.requests := rest }).1.respond r
        (body r.payload.tail { s with site.requests := rest }).2 := by
  have ht : s.canTake r = true := by simp [State.canTake, hl]
  simp only [takeRequest, hr, hc, ht, hd, and_self, if_true, if_false]

/-- Settles O17: codes and requests name each other, and the unknown request's body is one refusal. -/
theorem unknownRequestsAreAnswered : Obligations.UnknownRequestsAreAnswered :=
  ⟨fun _ _ p h => requestOf_requestCode p h, fun _ _ _ hr hd hl hnone =>
    congrArg Host.Outcome.next
      (takeRequest_addressed (body := unknownRequestBody) hr hd hl (requestOf_unknown hnone))⟩

/-! ## Frames to a drive proxy (R176, R177, R179) -/

theorem proxyAxis_proxyOf (x : Lane) : proxyAxis (proxyOf x) = some x := by cases x <;> rfl

theorem proxyOf_ne_broadcast (x : Lane) : proxyOf x ≠ 0xFF := by cases x <;> decide

section
variable {s : State} {f : Frame} {x : Lane}

theorem State.sortSite_proxy (hd : f.dest = proxyOf x) (hown : f.dest ≠ s.site.address) :
    s.sortSite f = s.proxyFrame x f := by
  have hall : f.dest ≠ 0xFF := hd ▸ proxyOf_ne_broadcast x
  have hproxy : proxyAxis f.dest = some x := hd ▸ proxyAxis_proxyOf x
  unfold State.sortSite
  rw [if_neg (fun h => h.elim hown hall), hproxy]

/-- A frame to a drive proxy, heard by a hunting receiver, reaches that axis's forwarding. -/
theorem exec_proxyServiceFrame (hrx : s.site.rx = .hunt) (hl : f.payload.length ≤ Config.payloadSize)
    (hd : f.dest = proxyOf x) (hown : f.dest ≠ s.site.address) :
    exec (.proxyServiceFrame f) s = .next (s.proxyFrame x f) :=
  congrArg Host.Outcome.next ((State.receiveLine_siteFrame hrx hl).trans (State.sortSite_proxy hd hown))

/-- What makes an entry match a proxy and kind (R176). -/
theorem forwardMatch_test {e : ForwardEntry} {kind : Byte} :
    (decide (e.proxy = x) && decide (e.low ≤ kind.toNat) && decide (kind.toNat ≤ e.high)) = true ↔
      e.proxy = x ∧ e.low ≤ kind.toNat ∧ kind.toNat ≤ e.high := by
  simp only [Bool.and_eq_true, decide_eq_true_eq, and_assoc]

theorem State.forwardMatch_eq_none {kind : Byte} (h : ∀ e ∈ s.site.forwarding, e.proxy = x →
    ¬(e.low ≤ kind.toNat ∧ kind.toNat ≤ e.high)) : s.forwardMatch x kind = none := by
  refine List.find?_eq_none.mpr fun e he hmatch => ?_
  obtain ⟨hproxy, hrange⟩ := forwardMatch_test.mp hmatch
  exact h e he hproxy hrange

theorem State.forwardMatch_eq_some {kind : Byte} {before after : List ForwardEntry} {e : ForwardEntry}
    (htable : s.site.forwarding = before ++ e :: after)
    (hbefore : ∀ d ∈ before, d.proxy = x → ¬(d.low ≤ kind.toNat ∧ kind.toNat ≤ d.high))
    (hproxy : e.proxy = x) (hlow : e.low ≤ kind.toNat) (hhigh : kind.toNat ≤ e.high) :
    s.forwardMatch x kind = some e := by
  refine List.find?_eq_some_iff_append.mpr ⟨forwardMatch_test.mpr ⟨hproxy, hlow, hhigh⟩, before, after,
    htable, fun d hd => ?_⟩
  rw [Bool.not_eq_true', Bool.eq_false_iff, ne_eq, forwardMatch_test]
  exact fun hmatch => hbefore d hd hmatch.1 hmatch.2

theorem State.proxyFrame_motionKind (h : 0x20 ≤ f.kind.toNat ∧ f.kind.toNat ≤ 0x27) :
    s.proxyFrame x f = s.refuseForward false x f f.src .motionKind := if_pos h

theorem State.proxyFrame_otherKind (h : f.kind.toNat < 0x20 ∨ 0x2F < f.kind.toNat) :
    s.proxyFrame x f = s := by
  unfold State.proxyFrame
  rw [if_neg (by omega), if_pos h]

theorem State.proxyFrame_unmatched (hlow : 0x28 ≤ f.kind.toNat) (hhigh : f.kind.toNat ≤ 0x2F)
    (h : s.forwardMatch x f.kind = none) : s.proxyFrame x f = s := by
  unfold State.proxyFrame
  rw [if_neg (by omega), if_neg (by omega), h]

/-- What a matching entry does with a service frame, test by test (R177). -/
theorem State.proxyFrame_matched {e : ForwardEntry} (hlow : 0x28 ≤ f.kind.toNat)
    (hhigh : f.kind.toNat ≤ 0x2F) (h : s.forwardMatch x f.kind = some e) :
    s.proxyFrame x f =
      if e.action = .drop then s
      else if e.action = .forwardQuiet ∧ s.seq.motion ∉ [.parked, .idle, .alarm] then
        s.refuseForward false x f f.src .busy
      else if 2 ≤ (s.ports.get x).service.length then s.refuseForward false x f f.src .full
      else s.forward x f := by
  unfold State.proxyFrame
  rw [if_neg (by omega), if_neg (by omega), h]
  simp only [← MotionState.resting_iff, Bool.not_eq_true]

/-- A refusal changes the reports alone (R179). -/
theorem State.refuseForward_hunting (hrx : s.site.rx = .hunt) (toSite : Bool) (station : Byte)
    (why : RefusedReason) : s.refuseForward toSite x f station why = { s with
      site.rx := .hunt
      rep := offerReport s.rep (.forwardRefused toSite x f.kind f.tag station why) s.time.mount
        s.activeId } := by
  rw [← hrx]
  rfl

theorem State.forward_hunting (hrx : s.site.rx = .hunt) : s.forward x f = { s with
    site.rx := .hunt
    ports := s.ports.set x { s.ports.get x with
      service := (s.ports.get x).service ++
        [{ dest := (s.axis x).node, src := 0x01, kind := f.kind, tag := f.tag, payload := f.payload }]
      requester := some f.src } } := by
  rw [← hrx]
  rfl

/-! ## Service replies (R178, R179) -/

/-- A service reply, heard by a hunting receiver, reaches its axis's return slot. -/
theorem exec_serviceReply (hrx : (s.ports.get x).rx = .hunt) (hl : f.payload.length ≤ Config.payloadSize)
    (hd : f.dest = 0x01) (hsrc : f.src = (s.axis x).node) (hlow : 0x28 ≤ f.kind.toNat)
    (hhigh : f.kind.toNat ≤ 0x2F) : exec (.serviceReply x f) s = .next (s.replyFrame x f) := by
  have hsample : f.kind ≠ 0x21 := fun h => absurd (h ▸ hlow) (by decide)
  have hsort : s.sortAxis x f = s.replyFrame x f := by
    unfold State.sortAxis
    rw [if_pos ⟨hd, hsrc⟩, if_neg hsample, if_pos ⟨hlow, hhigh⟩]
  exact congrArg Host.Outcome.next ((State.receiveLine_frame hrx hl).trans hsort)

theorem State.replyFrame_unasked (h : (s.ports.get x).requester = none) : s.replyFrame x f = s := by
  unfold State.replyFrame
  rw [h]

theorem State.replyFrame_full {station : Byte} (h : (s.ports.get x).requester = some station)
    (hfull : ∃ e ∈ s.site.returns, e.axis = x) :
    s.replyFrame x f = s.refuseForward true x f station .full := by
  unfold State.replyFrame
  rw [h]
  exact if_pos (by simpa using hfull)

theorem State.replyFrame_returned {station : Byte} (h : (s.ports.get x).requester = some station)
    (hfree : ¬∃ e ∈ s.site.returns, e.axis = x) : s.replyFrame x f = { s with
      site.returns := s.site.returns ++ [{ axis := x, frame :=
        { dest := station, src := proxyOf x, kind := f.kind, tag := f.tag, payload := f.payload } }] } := by
  unfold State.replyFrame
  rw [h]
  exact if_neg (by simpa using hfree)

/-- A hunting axis receiver put into HUNT leaves the ports as they are. -/
theorem ports_hunting (hrx : (s.ports.get x).rx = .hunt) :
    s.ports.set x { s.ports.get x with rx := .hunt } = s.ports := by
  rw [← hrx]
  cases x <;> rfl

end

/-- Settles O49: each branch of the proxy's sorting and of the reply's, by its own equation. -/
theorem proxyFramesAndReplies : Obligations.ProxyFramesAndReplies := by
  refine ⟨fun s f x hrx hl hd hown => ?proxy, fun s f x hrx hl hd hsrc hlow hhigh => ?reply⟩
  case proxy =>
    intro kind refused
    have hrefused (why : RefusedReason) :
        refused why = .next (s.refuseForward false x f f.src why) :=
      congrArg Host.Outcome.next (State.refuseForward_hunting hrx false f.src why).symm
    rw [exec_proxyServiceFrame hrx hl hd hown, State.hunting_self hrx]
    refine ⟨fun h => ?_, fun h => ?_, fun hlow hhigh => ⟨fun h => ?_, ?matched⟩⟩
    · rw [hrefused, State.proxyFrame_motionKind h]
    · rw [State.proxyFrame_otherKind h]
    · rw [State.proxyFrame_unmatched hlow hhigh (State.forwardMatch_eq_none h)]
    case matched =>
      intro before after e htable hbefore hproxy helow hehigh quiet
      rw [State.proxyFrame_matched hlow hhigh
        (State.forwardMatch_eq_some htable hbefore hproxy helow hehigh)]
      refine ⟨fun hdrop => ?_, fun hquiet => ?_, fun hdrop hquiet hfull => ?_,
        fun hdrop hquiet hroom => ?_⟩
      · rw [if_pos hdrop]
      · rw [hrefused, if_neg (by rw [hquiet.1]; decide), if_pos hquiet]
      · rw [hrefused, if_neg hdrop, if_neg hquiet, if_pos hfull]
      · rw [if_neg hdrop, if_neg hquiet, if_neg (Nat.not_le.mpr hroom), State.forward_hunting hrx]
  case reply =>
    intro ports full
    have hports : ports = s.ports := ports_hunting hrx
    rw [exec_serviceReply hrx hl hd hsrc hlow hhigh, hports]
    refine ⟨fun h => ?_, fun station h => ⟨fun hfull => ?_, fun hfree => ?_⟩⟩
    · rw [State.replyFrame_unasked h]
    · rw [State.replyFrame_full h hfull]
      rfl
    · rw [State.replyFrame_returned h hfree]

/-! ## A frame collected (R169, R171) -/

/-- Two fields of one width that read the same are the same bytes. -/
theorem beNat_injective_of_length {bs cs : List Byte} (hlen : bs.length = cs.length)
    (h : beNat bs = beNat cs) : bs = cs := by
  induction bs generalizing cs with
  | nil => exact (List.length_eq_zero_iff.mp hlen.symm).symm
  | cons b bs ih =>
    cases cs with
    | nil => cases hlen
    | cons c cs =>
      have htail : bs.length = cs.length := Nat.succ.inj hlen
      have hb := beNat_lt bs
      have hc := beNat_lt cs
      rw [beNat_cons, beNat_cons, ← htail, Nat.mul_comm b.toNat, Nat.mul_comm c.toNat] at h
      rw [← htail] at hc
      have hpos : 0 < 256 ^ bs.length := Nat.pow_pos (by decide)
      have hhead : b.toNat = c.toNat := by
        have := congrArg (· / 256 ^ bs.length) h
        simpa only [Nat.mul_add_div hpos, Nat.div_eq_of_lt hb, Nat.div_eq_of_lt hc, Nat.add_zero] using this
      rw [hhead] at h
      rw [BitVec.eq_of_toNat_eq hhead, ih htail (Nat.add_left_cancel h)]

/-- Writing the number that a field gives writes that field. -/
theorem natBytes_beNat (bs : List Byte) : natBytes bs.length (beNat bs) = bs :=
  beNat_injective_of_length (natBytes_length _ _) (beNat_natBytes_of_lt (beNat_lt bs))

/-- A frame spelled by its header, its length field and as many bytes as that field asks for reads back where
its last two bytes are the CRC of the others (R169, R171). -/
theorem frameOfWire_whole {dest src kind tag l1 l0 : Byte} {rest : List Byte} {n : Nat}
    (hn : beNat [l1, l0] = n) (hsize : n ≤ Config.payloadSize) (hlen : rest.length = n + 2) :
    frameOfWire (0xA5 :: dest :: src :: kind :: tag :: l1 :: l0 :: rest) =
      if beNat (rest.drop n) = (crc16 (dest :: src :: kind :: tag :: l1 :: l0 :: rest.take n)).toNat then
        some { dest, src, kind, tag, payload := rest.take n }
      else none := by
  have hcovered : frameCovered { dest, src, kind, tag, payload := rest.take n } =
      dest :: src :: kind :: tag :: l1 :: l0 :: rest.take n := by
    have htake : (rest.take n).length = n := List.length_take_of_le (by omega)
    have hlength : natBytes 2 n = [l1, l0] := hn ▸ natBytes_beNat [l1, l0]
    rw [frameCovered, htake, hlength]
    rfl
  have hcrc (c : BitVec 16) : rest.drop n = crcBytes c ↔ beNat (rest.drop n) = c.toNat := by
    have hdrop : (rest.drop n).length = (natBytes 2 c.toNat).length := by
      rw [List.length_drop, hlen, natBytes_length, Nat.add_sub_cancel_left]
    have hnumber : beNat (natBytes 2 c.toNat) = c.toNat := beNat_natBytes_of_lt c.isLt
    rw [crcBytes_eq]
    exact ⟨fun h => by rw [h, hnumber], fun h => beNat_injective_of_length hdrop (h.trans hnumber.symm)⟩
  simp only [frameOfWire, hn, hcovered, hcrc, hsize, hlen, true_and]

section
variable {all : List Byte}

theorem exists_header (h : 6 ≤ all.length) : ∃ dest src kind tag l1 l0 rest,
    all = dest :: src :: kind :: tag :: l1 :: l0 :: rest := by
  match all, h with
  | dest :: src :: kind :: tag :: l1 :: l0 :: rest, _ =>
    exact ⟨dest, src, kind, tag, l1, l0, rest, rfl⟩

theorem rxCollected_short (h : all.length < 6) : rxCollected all = (.frame all 0, none) := if_pos h

theorem rxCollected_oversize (h : 6 ≤ all.length) (hsize : Config.payloadSize < natAt all 4 2) :
    rxCollected all = (.waitIdle 0, some (.discarded .oversize)) := by
  unfold rxCollected
  rw [if_neg (Nat.not_lt.mpr h), if_pos hsize]

theorem rxCollected_unfinished (h : 6 ≤ all.length) (hsize : natAt all 4 2 ≤ Config.payloadSize)
    (hlen : all.length < natAt all 4 2 + 8) : rxCollected all = (.frame all 0, none) := by
  unfold rxCollected
  rw [if_neg (Nat.not_lt.mpr h), if_neg (Nat.not_lt.mpr hsize), if_pos hlen]

/-- The last byte of a frame decides it by its CRC: the frame it spells is handed on, or the bytes are
discarded (R169). -/
theorem rxCollected_whole (hsize : natAt all 4 2 ≤ Config.payloadSize)
    (hlen : all.length = natAt all 4 2 + 8) :
    ∃ dest src kind tag, all.take 4 = [dest, src, kind, tag] ∧ rxCollected all =
      if natAt all (natAt all 4 2 + 6) 2 = (crc16 (all.take (natAt all 4 2 + 6))).toNat then
        (.hunt, some (.received
          { dest, src, kind, tag, payload := (all.drop 6).take (natAt all 4 2) }))
      else (.hunt, some (.discarded .crc)) := by
  obtain ⟨dest, src, kind, tag, l1, l0, rest, rfl⟩ := exists_header (all := all) (by omega)
  refine ⟨dest, src, kind, tag, rfl, ?_⟩
  generalize hn : natAt (dest :: src :: kind :: tag :: l1 :: l0 :: rest) 4 2 = n at *
  have hrest : rest.length = n + 2 := by
    simp only [List.length_cons] at hlen
    omega
  have hfield : natAt (dest :: src :: kind :: tag :: l1 :: l0 :: rest) (n + 6) 2 = beNat (rest.drop n) := by
    have htake : (rest.drop n).take 2 = rest.drop n :=
      List.take_of_length_le (by rw [List.length_drop]; omega)
    exact congrArg beNat htake
  unfold rxCollected
  rw [hn, if_neg (by omega), if_neg (by omega), if_neg (by omega), frameOfWire_whole hn hsize hrest, hfield]
  simp only [List.take_succ_cons, List.drop_succ_cons, List.drop_zero]
  by_cases hcrc : beNat (rest.drop n) =
      (crc16 (dest :: src :: kind :: tag :: l1 :: l0 :: rest.take n)).toNat
  · rw [if_pos hcrc, if_pos hcrc]
  · rw [if_neg hcrc, if_neg hcrc]

end

/-! ## A receiver's line (R169) -/

/-- A length field above 240 ends a hunting receiver's frame at the header's last byte. -/
theorem rxRun_oversizeHeader {l1 l0 : Byte} (dest src kind tag : Byte)
    (h : Config.payloadSize < beNat [l1, l0]) :
    rxRun .hunt ([0xA5, dest, src, kind, tag, l1, l0].map fun b => .char (lineChar b)) =
      (.waitIdle 0, [.discarded .oversize]) := by
  have hlast : rxCollected [dest, src, kind, tag, l1, l0] =
      (.waitIdle 0, some (.discarded .oversize)) := rxCollected_oversize le_rfl h
  have hearlier {bytes : List Byte} (hlen : bytes.length < 6) :
      rxCollected bytes = (.frame bytes 0, none) := rxCollected_short hlen
  simp [rxRun, rxNext, rxByte, hlast, hearlier]

theorem rxRun_waitIdle_bytes (bytes : List Byte) :
    rxRun (.waitIdle 0) (bytes.map fun b => .char (lineChar b)) = (.waitIdle 0, []) := by
  have hignores := rxRun_waitIdle (bytes.map lineChar)
  rwa [List.map_map] at hignores

/-- A hunting receiver discards a frame as an Oversize at its length field, and ignores the rest of it. -/
theorem rxRun_oversize {f : Frame} (h : Config.payloadSize < f.payload.length)
    (hmax : f.payload.length ≤ 65535) :
    rxRun .hunt (frameLine f) = (.waitIdle 0, [.discarded .oversize]) := by
  have hfield : beNat (natBytes 2 f.payload.length) = f.payload.length :=
    beNat_natBytes_of_lt (Nat.lt_succ_of_le hmax)
  have hheader : rxRun .hunt (([0xA5, f.dest, f.src, f.kind, f.tag] ++ natBytes 2 f.payload.length).map
      fun b => .char (lineChar b)) = (.waitIdle 0, [.discarded .oversize]) :=
    rxRun_oversizeHeader f.dest f.src f.kind f.tag (h.trans_eq hfield.symm)
  have hwire : frameWire f = ([0xA5, f.dest, f.src, f.kind, f.tag] ++ natBytes 2 f.payload.length) ++
      (f.payload ++ crcBytes (crc16 (frameCovered f))) := by
    simp only [frameWire, frameCovered, List.cons_append, List.nil_append, List.append_assoc]
  rw [frameLine, hwire, List.map_append, rxRun_append, hheader, rxRun_waitIdle_bytes, List.append_nil]

/-- A frame that comes in WAIT_IDLE is ignored, and it ends the idle time. -/
theorem rxRun_frameLine_waitIdle (idle : Nat) (f : Frame) :
    rxRun (.waitIdle idle) (frameLine f) = (.waitIdle 0, []) :=
  congrArg (fun q : RxState × List RxEvent => (q.1, [] ++ q.2)) (rxRun_waitIdle_bytes (frameBody f))

section
variable {s : State} {p : Port} {input : List LineInput}

/-- A frame that comes in WAIT_IDLE moves its receiver alone. -/
theorem State.receiveLine_waiting {idle : Nat} (f : Frame) (h : s.receiver p = .waitIdle idle) :
    s.receiveLine p (frameLine f) = s.setReceiver p (.waitIdle 0) := by
  have hrun := rxRun_frameLine_waitIdle idle f
  rw [← h] at hrun
  rw [State.receiveLine_silent (congrArg Prod.snd hrun), hrun]

/-- An error on a line moves the receiver and counts once. -/
theorem State.receiveLine_discarded {e : LinkError} (h : (rxRun (s.receiver p) input).2 = [.discarded e]) :
    s.receiveLine p input = (s.setReceiver p (rxRun (s.receiver p) input).1).countError p :=
  State.receiveLine_one h

/-- Two byte times of idle line end WAIT_IDLE (R169). -/
theorem exec_waitIdleReturnToHunt_waiting {idle : Nat} (h : s.receiver p = .waitIdle idle) :
    exec (.waitIdleReturnToHunt p) s = .next (s.setReceiver p .hunt) := by
  have hrun : rxRun (s.receiver p) [.quiet 2] = (.hunt, []) := by
    simp [h, rxRun, rxNext, rxIdle]
  refine congrArg Host.Outcome.next ((if_pos (by rw [h]; rfl)).trans ?_)
  rw [State.receiveLine_silent (congrArg Prod.snd hrun), hrun]

/-- Outside WAIT_IDLE its end is not due (log 2). -/
theorem exec_waitIdleReturnToHunt_other (h : ∀ idle, s.receiver p ≠ .waitIdle idle) :
    exec (.waitIdleReturnToHunt p) s = .next s := by
  refine congrArg Host.Outcome.next (if_neg ?_)
  cases hrx : s.receiver p with
  | hunt | frame => exact Bool.false_ne_true
  | waitIdle idle => exact absurd hrx (h idle)

/-- An axis port's error counted behind its receiver's move is one update of that port. -/
theorem State.setReceiver_countError_axis (s : State) (x : Lane) (r : RxState) :
    (s.setReceiver (.axis x) r).countError (.axis x) = { s with
      ports := s.ports.set x { s.ports.get x with
        rx := r, linkErrors := raiseCount (s.ports.get x).linkErrors } } := by
  cases x <;> rfl

end

/-! ## Idle time, and the steps of a receiver in FRAME (R169) -/

theorem rxIdle_frame_short {bytes : List Byte} {idle n : Nat} (h : idle + n < 2) :
    rxIdle (.frame bytes idle) n = (.frame bytes (idle + n), none) := if_neg (Nat.not_le.mpr h)

theorem rxIdle_frame_truncates {bytes : List Byte} {idle n : Nat} (h : 2 ≤ idle + n) :
    rxIdle (.frame bytes idle) n = (.hunt, some (.discarded .truncation)) := if_pos h

/-- Settles O50: a receiver's move by its state and its input, and each command by what its line's run hands
on. -/
theorem linkErrorsAreCounted : Obligations.LinkErrorsAreCounted := by
  refine ⟨fun r c n rest i => ?moves, fun s x input e f => ?commands⟩
  case moves =>
    refine ⟨rfl, rfl, ?hunt, ?waitIdle, ?frame⟩
    case hunt =>
      rintro rfl
      exact ⟨rfl, rfl⟩
    case waitIdle =>
      rintro idle rfl
      refine ⟨rfl, fun h => ?_, fun h => ?_⟩
      · exact congrArg (·, none) (if_neg (Nat.not_le.mpr h))
      · exact congrArg (·, none) (if_pos h)
    case frame =>
      rintro bytes idle rfl all length
      refine ⟨rxIdle_frame_short, rxIdle_frame_truncates, rxCollected_short, rxCollected_oversize,
        rxCollected_unfinished, fun hsize hlen => ?_⟩
      obtain ⟨dest, src, kind, tag, hheader, hwhole⟩ := rxCollected_whole hsize hlen
      exact ⟨fun hcrc => ⟨dest, src, kind, tag, hheader, hwhole.trans (if_pos hcrc)⟩,
        fun hcrc => hwhole.trans (if_neg hcrc)⟩
  case commands =>
    intro count site axis
    refine ⟨fun h => ?siteSilent, fun h => ?siteError, fun h => ?axisSilent, fun h => ?axisError,
      fun hrx hsize hmax => ?oversize, fun idle hrx => ?siteWaits, ?siteOther, fun idle hrx => ?axisWaits,
      ?axisOther⟩
    case siteSilent => exact congrArg Host.Outcome.next (State.receiveLine_silent (p := .site) h)
    case siteError => exact congrArg Host.Outcome.next (State.receiveLine_discarded (p := .site) h)
    case axisSilent => exact congrArg Host.Outcome.next (State.receiveLine_silent (p := .axis x) h)
    case axisError =>
      exact congrArg Host.Outcome.next ((State.receiveLine_discarded (p := .axis x) h).trans
        (State.setReceiver_countError_axis s x axis.1))
    case oversize =>
      have hrun : rxRun (s.receiver .site) (frameLine f) = (.waitIdle 0, [.discarded .oversize]) := by
        rw [show s.receiver .site = .hunt from hrx, rxRun_oversize hsize hmax]
      have hline := State.receiveLine_discarded (congrArg Prod.snd hrun)
      rw [hrun] at hline
      exact congrArg Host.Outcome.next hline
    case siteWaits =>
      intro ignored
      have hignored : s.receiveLine .site (frameLine f) = ignored :=
        State.receiveLine_waiting (p := .site) f hrx
      exact ⟨exec_waitIdleReturnToHunt_waiting (p := .site) hrx, congrArg _ hignored,
        congrArg _ hignored, congrArg _ hignored⟩
    case siteOther => exact exec_waitIdleReturnToHunt_other (p := .site)
    case axisWaits =>
      intro moved
      have hignored : s.receiveLine (.axis x) (frameLine f) = moved (.waitIdle 0) :=
        State.receiveLine_waiting (p := .axis x) f hrx
      exact ⟨exec_waitIdleReturnToHunt_waiting (p := .axis x) hrx, congrArg _ hignored,
        congrArg _ hignored⟩
    case axisOther => exact exec_waitIdleReturnToHunt_other (p := .axis x)

end Sys2Proof.Machine

/-! # Reset Controller and Set Report Destination: obligations O43, O47 -/

namespace Sys2Proof.Machine

/-! ## Reset Controller (R187) -/

section
variable {s : State} {r : Request} {rest : List Request} {code : Byte} {p : List Byte}

theorem resetControllerBody_moving (hm : s.seq.motion ∉ [.parked, .idle, .alarm]) :
    resetControllerBody [] s = refuse s .wrongState := by
  rw [← MotionState.resting_iff, Bool.not_eq_true] at hm
  rw [resetControllerBody, if_neg (not_not_intro rfl), if_pos hm]

theorem resetControllerBody_resting (hm : s.seq.motion ∈ [.parked, .idle, .alarm]) :
    resetControllerBody [] s = accept s.softReset [motionCode s.seq.motion] := by
  rw [← MotionState.resting_iff] at hm
  rw [resetControllerBody, if_neg (not_not_intro rfl), if_neg (by rw [hm]; decide)]

/-- A soft reset empties the request buffer, so it does not matter which requests stood in it. -/
theorem State.softReset_withRequests (s : State) (rest : List Request) :
    State.softReset { s with site.requests := rest } = s.softReset := rfl

/-- The answer to the request that a soft reset served is alone in the response queue (R187). -/
theorem State.softReset_respond (h : s.asks r rest code p) (reply : Reply) :
    s.softReset.respond r reply = { s.softReset with
      site.responses := [{ dest := r.src, tag := r.tag, code, reply }] } := by
  obtain ⟨-, hpayload, -, -⟩ := h
  simp only [State.respond, hpayload, List.headD_cons]
  rfl

/-- A Reset Controller taken at rest leaves the soft reset and its own answer. -/
theorem exec_resetController_resting (h : s.asks r rest 0x51 [])
    (hm : s.seq.motion ∈ [.parked, .idle, .alarm]) :
    exec .resetController s = .next { s.softReset with
      site.responses := [{ dest := r.src, tag := r.tag, code := 0x51
                           reply := okReply [motionCode s.seq.motion] }] } := by
  have htaken := takeRequest_asks (cmd := .resetController) (body := resetControllerBody) h rfl
  rw [resetControllerBody_resting (s := { s with site.requests := rest }) hm] at htaken
  refine congrArg Host.Outcome.next (htaken.trans ?_)
  rw [accept, State.softReset_withRequests]
  exact State.softReset_respond h _

end

/-- Settles O47: in a moving state the body refuses, and at rest what is left is the soft reset, block by block. -/
theorem resetControllerClearsQueues : Obligations.ResetControllerClearsQueues := fun s _ rest h =>
  ⟨fun hm => exec_answers h rfl rfl (resetControllerBody_moving (s := { s with site.requests := rest }) hm),
    fun hm => exec_resetController_resting h hm⟩

/-! ## Set Report Destination (R184) -/

section
variable {s : State} {p : List Byte} {b : Byte}

theorem setReportDestinationBody_wrongLength (hl : p.length ≠ 1) :
    setReportDestinationBody p s = refuse s .badParam := by
  unfold setReportDestinationBody
  split
  · exact absurd rfl hl
  · rfl

theorem setReportDestinationBody_refused (hb : ownOrProxy s.site.address b = true) :
    setReportDestinationBody [b] s = refuse s .badParam := if_pos hb

theorem setReportDestinationBody_replaces (hb : ¬ ownOrProxy s.site.address b = true) :
    setReportDestinationBody [b] s = accept { s with rep.dest := b } [s.rep.dest] := if_neg hb

end

/-- Settles O43: the one test is that of the part's own and the proxies' addresses, and a report is addressed
when its frame starts. -/
theorem setReportDestinationReplaces : Obligations.SetReportDestinationReplaces := by
  intro s r rest p b
  let taken : State := { s with site.requests := rest }
  refine ⟨fun h hl => ?length, fun h hb => ?refused, fun h hown haz hel hrot => ?replaced,
    fun q qs hflight hgap hresp hrep => ?nextReport, fun hr hd hp => ?broadcast⟩
  case length => exact exec_answers h rfl rfl (setReportDestinationBody_wrongLength (s := taken) hl)
  case refused =>
    exact exec_answers h rfl rfl
      (setReportDestinationBody_refused (s := taken) ((ownOrProxy_iff _ _).mpr hb))
  case replaced =>
    have hforeign : ¬ ownOrProxy taken.site.address b = true := by
      simp only [ownOrProxy_iff, not_or]
      exact ⟨hown, haz, hel, hrot⟩
    exact exec_answers (u := { s with rep.dest := b }) h rfl rfl
      (setReportDestinationBody_replaces hforeign)
  case nextReport =>
    exact ⟨_, exec_siteTransmitStart_free hflight hgap (State.startSite_of_reports hresp hrep), rfl, rfl⟩
  case broadcast => exact congrArg Host.Outcome.next (takeRequest_discards hr hd (by rw [hp]; rfl) rfl)

end Sys2Proof.Machine

/-! # The step: obligation O1 -/

namespace Sys2Proof.Machine

/-- Settles O1: with the queue known to be `c :: rest`, the first arm of `step` is the one taken, whatever
event of the part's own is due; this is the law `step_front`. -/
theorem stepRunsFrontCommand : Obligations.StepRunsFrontCommand := by
  intro c rest s hfront
  exact step_front hfront

end Sys2Proof.Machine
